-- ==== Sys2Proof/Word.lean ====
section
/-! DEFINITION. The word types of the RTTY-FSK block: each width the spec fixes, named once.
The block has no byte, no address and no signed word of its own (20_memory.md R37, R39; 00_scope.md R9). -/

namespace Sys2Proof

/-- A command word: WORD_WIDTH = 32 (00_scope.md R6; 30_encoding.md R45). -/
abbrev Word := BitVec 32

/-- A character as the PUSH operand carries it: CP_WIDTH = 21 (00_scope.md R6; 10_state.md R28). -/
abbrev Char21 := BitVec 21

/-- The value of a code symbol: 5 bits, 0 to 31 (00_scope.md R7; 30_encoding.md R50). -/
abbrev Sym := BitVec 5

/-- An index of the CodeTable ROM: one shift bit above five code bits, so 0 to 63
(20_memory.md R33, R34). -/
abbrev RomAddr := BitVec 6

/-- The FLOAT_FORMAT parameter (00_scope.md R6): a binary interchange format of IEEE 754, by the widths of its exponent
and of its fraction, one sign bit above them. Assumption log 15. -/
structure FloatFormat where
  expBits : Nat
  fracBits : Nat
  deriving DecidableEq, Repr

/-- The width of a value of the format. -/
def FloatFormat.width (f : FloatFormat) : Nat := 1 + f.expBits + f.fracBits

/-- IEEE 754 binary64, the value this spec takes for FLOAT_FORMAT (00_scope.md R6; 92_eei_decisions.md D12). -/
def FloatFormat.binary64 : FloatFormat := ⟨11, 52⟩

/-- A FLOAT sample: its bits in its format (00_scope.md R6; 10_state.md R30). -/
structure FloatVal where
  format : FloatFormat
  bits : BitVec format.width
  deriving DecidableEq, Repr

/-- A 16-bit two's-complement output sample (42_synthesizer.md R110). -/
abbrev Pcm16 := BitVec 16

end Sys2Proof
end

