-- ==== Sys2Proof/Syntax.lean ====
section
/-! DEFINITION. The syntax of the block: the instructions of spec/opcode_table.json, the encoded units they are
read from, and the small enumerations and records that commands, tables and registers are written with. -/

namespace Sys2Proof

/-- The shift state: "exactly two values" (00_scope.md R7; 10_state.md R21). -/
inductive ShiftState where
  | letters
  | figures
  deriving DecidableEq, Repr, Inhabited

/-- The shift a character requires (40_codetable.md R55; 90_conflicts.md C3). -/
inductive ReqShift where
  | letters
  | figures
  | neutral
  deriving DecidableEq, Repr

/-- The tag of a CodeSymbol (40_codetable.md R54). -/
inductive Tag where
  | letters
  | figures
  | neutral
  | shift
  deriving DecidableEq, Repr

/-- A CodeSymbol: a value and its tag. The tag is neither stored nor sent (40_codetable.md R54). -/
structure CodeSymbol where
  value : Sym
  tag : Tag
  deriving DecidableEq, Repr

/-- The two tones (42_synthesizer.md R103). -/
inductive Tone where
  | mark
  | space
  deriving DecidableEq, Repr

/-- One element of a frame: a tone held for a width in bit times (41_framer.md R97). -/
structure Element where
  tone : Tone
  width : Rat
  deriving DecidableEq, Repr

/-- CFG.outputFormat: FLOAT = 0, INT16 = 1 (10_state.md R16). -/
inductive OutputFormat where
  | float
  | int16
  deriving DecidableEq, Repr

/-- One entry of the CodeTable ROM: a present bit and a character, 22 bits (20_memory.md R33, R34). -/
structure RomEntry where
  present : Bool
  char : Char21
  deriving DecidableEq, Repr, Inhabited

/-- The contents of the CodeTable ROM, the CODE_TABLE parameter: 64 entries at `shift * 32 + code`
(20_memory.md R33). -/
abbrev CodeTable := Vector RomEntry 64

/-- The eight fields of the configuration struct, as the configuration bus carries them and as CFG holds them
beside its valid bit (10_state.md R16). Every number is an exact rational (00_scope.md R8). -/
structure CfgData where
  baudRate : Rat
  sampleRate : Rat
  markFrequency : Rat
  spaceFrequency : Rat
  stopBitMultiplier : Rat
  amplitude : Rat
  skipUnknownChars : Bool
  outputFormat : OutputFormat
  deriving DecidableEq, Repr

/-- What a decoder is given: a command word from the command port, or a code symbol from the symbol queue. The
spec has these two encoded spaces and no other (30_encoding.md, introduction). -/
inductive Code where
  | word (w : Word)
  | symbol (v : Sym)
  deriving DecidableEq, Repr

/-- The instructions: one constructor for each row of spec/opcode_table.json. The first five are the commands
of the command port (30_encoding.md R46). The other 32 are the code symbols of the line (30_encoding.md R50): the
block fetches them from SYMQ while it sends a message, one symbol sample in each SYNTH step (assumption log 1). -/
inductive Instr where
  /-- NOP (43_encoder.md R116). -/
  | nop
  /-- CFG: its operand is the configuration bus, not a field of the word (43_encoder.md R117; 30_encoding.md R47). -/
  | cfg
  /-- BEGIN (43_encoder.md R119). -/
  | beginMsg
  /-- PUSH c (43_encoder.md R120). -/
  | push (c : Char21)
  /-- END (43_encoder.md R121). -/
  | endMsg
  /-- ITA2_NUL: code symbol 0x00 (40_codetable.md R58). -/
  | ita2Nul
  /-- ITA2_E|3: code symbol 0x01 (40_codetable.md R59). -/
  | ita2E3
  /-- ITA2_LF: code symbol 0x02 (40_codetable.md R60). -/
  | ita2Lf
  /-- ITA2_A|-: code symbol 0x03 (40_codetable.md R61). -/
  | ita2ADash
  /-- ITA2_SP: code symbol 0x04 (40_codetable.md R62). -/
  | ita2Sp
  /-- ITA2_S|BEL: code symbol 0x05 (40_codetable.md R63). -/
  | ita2SBel
  /-- ITA2_I|8: code symbol 0x06 (40_codetable.md R64). -/
  | ita2I8
  /-- ITA2_U|7: code symbol 0x07 (40_codetable.md R65). -/
  | ita2U7
  /-- ITA2_CR: code symbol 0x08 (40_codetable.md R66). -/
  | ita2Cr
  /-- ITA2_D|$: code symbol 0x09 (40_codetable.md R67). -/
  | ita2DDollar
  /-- ITA2_R|4: code symbol 0x0A (40_codetable.md R68). -/
  | ita2R4
  /-- ITA2_J|': code symbol 0x0B (40_codetable.md R69). -/
  | ita2JApos
  /-- ITA2_N|,: code symbol 0x0C (40_codetable.md R70). -/
  | ita2NComma
  /-- ITA2_F|!: code symbol 0x0D (40_codetable.md R71). -/
  | ita2FBang
  /-- ITA2_C|:: code symbol 0x0E (40_codetable.md R72). -/
  | ita2CColon
  /-- ITA2_K|(: code symbol 0x0F (40_codetable.md R73). -/
  | ita2KParenL
  /-- ITA2_T|5: code symbol 0x10 (40_codetable.md R74). -/
  | ita2T5
  /-- ITA2_Z|": code symbol 0x11 (40_codetable.md R75). -/
  | ita2ZQuote
  /-- ITA2_L|): code symbol 0x12 (40_codetable.md R76). -/
  | ita2LParenR
  /-- ITA2_W|2: code symbol 0x13 (40_codetable.md R77). -/
  | ita2W2
  /-- ITA2_H|#: code symbol 0x14 (40_codetable.md R78). -/
  | ita2HHash
  /-- ITA2_Y|6: code symbol 0x15 (40_codetable.md R79). -/
  | ita2Y6
  /-- ITA2_P|0: code symbol 0x16 (40_codetable.md R80). -/
  | ita2P0
  /-- ITA2_Q|1: code symbol 0x17 (40_codetable.md R81). -/
  | ita2Q1
  /-- ITA2_O|9: code symbol 0x18 (40_codetable.md R82). -/
  | ita2O9
  /-- ITA2_B|?: code symbol 0x19 (40_codetable.md R83). -/
  | ita2BQuestion
  /-- ITA2_G|&: code symbol 0x1A (40_codetable.md R84). -/
  | ita2GAmp
  /-- ITA2_FIGS: code symbol 0x1B (40_codetable.md R85). -/
  | ita2Figs
  /-- ITA2_M|.: code symbol 0x1C (40_codetable.md R86). -/
  | ita2MDot
  /-- ITA2_X|/: code symbol 0x1D (40_codetable.md R87). -/
  | ita2XSlash
  /-- ITA2_V|;: code symbol 0x1E (40_codetable.md R88). -/
  | ita2VSemi
  /-- ITA2_LTRS: code symbol 0x1F (40_codetable.md R89). -/
  | ita2Ltrs
  deriving DecidableEq, Repr, Inhabited

end Sys2Proof
end

