-- ==== Sys2Proof/Decode.lean ====
section
/-! DEFINITION. The decoder and, after it, the encoder of the block's two encoded spaces: the 32-bit command word
(30_encoding.md R45 to R48) and the 5-bit code symbol (30_encoding.md R50). Both are total. -/

namespace Sys2Proof

/-- Why a command word is illegal whatever the phase: the cases (a), (b) and (c) of 30_encoding.md R48. -/
inductive DecodeError where
  /-- (a) OP in 0x05-0xFF. -/
  | reservedOpcode
  /-- (b) OP = 0x03 and word[23:21] not zero. -/
  | reservedBits
  /-- (c) OP in 0x00, 0x01, 0x02, 0x04 and word[23:0] not zero. -/
  | operandNotZero
  deriving DecidableEq, Repr

/-- OP, bits [31:24] of a command word (30_encoding.md R45). -/
def Word.op (w : Word) : BitVec 8 := w.extractLsb' 24 8

/-- RSV, bits [23:21] of a command word (30_encoding.md R45). -/
def Word.rsv (w : Word) : BitVec 3 := w.extractLsb' 21 3

/-- CP, bits [20:0] of a command word: PUSH's character `zext_21(word[20:0])` (30_encoding.md R45, R47). -/
def Word.cp (w : Word) : Char21 := w.extractLsb' 0 21

/-- Format Z: the command, if bits [23:0] are zero (30_encoding.md R46). -/
def decodeZ (w : Word) (i : Instr) : Except DecodeError Instr :=
  if Word.rsv w = 0 ∧ Word.cp w = 0 then .ok i else .error .operandNotZero

/-- The command a word encodes: the opcode map of 30_encoding.md R46, with the illegal words of R48. -/
def decodeCommand (w : Word) : Except DecodeError Instr :=
  if Word.op w = 0x00#8 then decodeZ w .nop
  else if Word.op w = 0x01#8 then decodeZ w .cfg
  else if Word.op w = 0x02#8 then decodeZ w .beginMsg
  else if Word.op w = 0x03#8 then
    if Word.rsv w = 0 then .ok (.push (Word.cp w)) else .error .reservedBits
  else if Word.op w = 0x04#8 then decodeZ w .endMsg
  else .error .reservedOpcode

/-- Code symbols 0x00 to 0x07 in order (spec/opcode_table.json, ITA2_SYMBOL rows). -/
def symbolRows0 : List Instr :=
  [.ita2Nul, .ita2E3, .ita2Lf, .ita2ADash,
   .ita2Sp, .ita2SBel, .ita2I8, .ita2U7]

/-- Code symbols 0x08 to 0x0F in order (spec/opcode_table.json, ITA2_SYMBOL rows). -/
def symbolRows1 : List Instr :=
  [.ita2Cr, .ita2DDollar, .ita2R4, .ita2JApos,
   .ita2NComma, .ita2FBang, .ita2CColon, .ita2KParenL]

/-- Code symbols 0x10 to 0x17 in order (spec/opcode_table.json, ITA2_SYMBOL rows). -/
def symbolRows2 : List Instr :=
  [.ita2T5, .ita2ZQuote, .ita2LParenR, .ita2W2,
   .ita2HHash, .ita2Y6, .ita2P0, .ita2Q1]

/-- Code symbols 0x18 to 0x1F in order (spec/opcode_table.json, ITA2_SYMBOL rows). -/
def symbolRows3 : List Instr :=
  [.ita2O9, .ita2BQuestion, .ita2GAmp, .ita2Figs,
   .ita2MDot, .ita2XSlash, .ita2VSemi, .ita2Ltrs]

/-- The 32 code symbols by value: "All 32 values are assigned, none is reserved" (30_encoding.md R50). -/
def symbolRows : Vector Instr 32 :=
  ⟨(symbolRows0 ++ symbolRows1 ++ symbolRows2 ++ symbolRows3).toArray, rfl⟩

/-- The code symbol of a 5-bit value (30_encoding.md R50). -/
def decodeSymbol (v : Sym) : Instr := symbolRows[v.toNat]

/-- The decoder: total on every unit of either encoded space, rejecting by name. -/
def decode : Code → Except DecodeError Instr
  | .word w => decodeCommand w
  | .symbol v => .ok (decodeSymbol v)

/-- A command word from its fields, RSV = 000 (30_encoding.md R45). -/
def commandWord (op : BitVec 8) (cp : Char21) : Word := op ++ 0#3 ++ cp

/-- The encoder: the command word (30_encoding.md R46) or the code symbol (40_codetable.md R58 to R89) of an
instruction. -/
def encode : Instr → Code
  | .nop => .word (commandWord 0x00#8 0)
  | .cfg => .word (commandWord 0x01#8 0)
  | .beginMsg => .word (commandWord 0x02#8 0)
  | .push c => .word (commandWord 0x03#8 c)
  | .endMsg => .word (commandWord 0x04#8 0)
  | .ita2Nul => .symbol 0x00#5
  | .ita2E3 => .symbol 0x01#5
  | .ita2Lf => .symbol 0x02#5
  | .ita2ADash => .symbol 0x03#5
  | .ita2Sp => .symbol 0x04#5
  | .ita2SBel => .symbol 0x05#5
  | .ita2I8 => .symbol 0x06#5
  | .ita2U7 => .symbol 0x07#5
  | .ita2Cr => .symbol 0x08#5
  | .ita2DDollar => .symbol 0x09#5
  | .ita2R4 => .symbol 0x0A#5
  | .ita2JApos => .symbol 0x0B#5
  | .ita2NComma => .symbol 0x0C#5
  | .ita2FBang => .symbol 0x0D#5
  | .ita2CColon => .symbol 0x0E#5
  | .ita2KParenL => .symbol 0x0F#5
  | .ita2T5 => .symbol 0x10#5
  | .ita2ZQuote => .symbol 0x11#5
  | .ita2LParenR => .symbol 0x12#5
  | .ita2W2 => .symbol 0x13#5
  | .ita2HHash => .symbol 0x14#5
  | .ita2Y6 => .symbol 0x15#5
  | .ita2P0 => .symbol 0x16#5
  | .ita2Q1 => .symbol 0x17#5
  | .ita2O9 => .symbol 0x18#5
  | .ita2BQuestion => .symbol 0x19#5
  | .ita2GAmp => .symbol 0x1A#5
  | .ita2Figs => .symbol 0x1B#5
  | .ita2MDot => .symbol 0x1C#5
  | .ita2XSlash => .symbol 0x1D#5
  | .ita2VSemi => .symbol 0x1E#5
  | .ita2Ltrs => .symbol 0x1F#5

/-- The 5-bit value of a code symbol; a command has none. -/
def Instr.symbol? (i : Instr) : Option Sym :=
  match encode i with
  | .symbol v => some v
  | .word _ => none

/-- The instruction the decoder reads from a table row's bits, numbered as spec/opcode_table.json numbers them. A
row of at most 8 bits is a code symbol, in the low 5 bits of its byte, the other three zero; a wider row is a
command word (30_encoding.md R45, R50). -/
def decodeTableWord (nbits w : Nat) : Option Instr :=
  if nbits ≤ 8 then
    if w < 32 then (decode (.symbol (BitVec.ofNat 5 w))).toOption else none
  else
    if w < 2 ^ 32 then (decode (.word (BitVec.ofNat 32 w))).toOption else none

end Sys2Proof
end

