-- ==== Sys2Proof/Machine/Arith.lean ====
section
/-! DEFINITION. The rounding functions of the spec, on exact rationals (00_scope.md R8, R9; 42_synthesizer.md R110). -/

namespace Sys2Proof.Machine

/-- `frac(x) = x - floor(x)`, in [0, 1) (00_scope.md R8). -/
def frac (x : Rat) : Rat := x - (x.floor : Rat)

/-- `round_half_up(x) = floor(x + 1/2)` (00_scope.md R8). -/
def roundHalfUp (x : Rat) : Int := (x + 1 / 2).floor

/-- `round_half_away(x)`: the integer nearest x, halves away from zero (42_synthesizer.md R110). -/
def roundHalfAway (x : Rat) : Int :=
  if 0 ≤ x then (x + 1 / 2).floor else -(-x + 1 / 2).floor

/-- `sat16(q) = min(32767, max(-32767, q))` (42_synthesizer.md R110). -/
def sat16 (q : Int) : Int := min 32767 (max (-32767) q)

/-- The exact value of a FLOAT sample; none for an infinity or a NaN (00_scope.md R6, FLOAT_FORMAT; assumption
log 15): sign, exponent field e and fraction field m; e all ones is no number, e = 0 a subnormal. -/
def FloatVal.val (v : FloatVal) : Option Rat :=
  let eb := v.format.expBits
  let fb := v.format.fracBits
  let bias := 2 ^ (eb - 1) - 1
  let sign : Rat := if v.bits.getLsbD (eb + fb) then -1 else 1
  let e := (v.bits.extractLsb' fb eb).toNat
  let m := (v.bits.extractLsb' 0 fb).toNat
  if e ≠ 0 ∧ e + 1 = 2 ^ eb then none
  else if e = 0 then some (sign * ((m : Rat) / ((2 ^ (bias + fb - 1) : Nat) : Rat)))
  else if bias + fb ≤ e then some (sign * (((2 ^ fb + m) * 2 ^ (e - (bias + fb)) : Nat) : Rat))
  else some (sign * (((2 ^ fb + m : Nat) : Rat) / ((2 ^ (bias + fb - e) : Nat) : Rat)))

end Sys2Proof.Machine
end

