-- ==== Sys2Proof/Config.lean ====
section
/-! DEFINITION. What one built block fixes and what the spec leaves open (00_scope.md R6). Every build-time parameter is
data of a block and stands in State, where no step changes it. The two OPEN ones, SAMPLE_FN and EPS_SIN, are known by
P1 to P4 of 42_synthesizer.md R109 alone: a constant with no body gives them, and nothing else can be proved of it. -/

namespace Sys2Proof

/-- What a pair SAMPLE_FN, EPS_SIN over a format satisfies: P2, P3 and P4 of 42_synthesizer.md R109. P1 is its being a
function of A and θ. Assumption log 3. -/
structure SampleFnLegal (f : FloatFormat) (fn : Rat → Rat → BitVec f.width) (eps : NNRat) : Prop where
  /-- P3, "−A ≤ SAMPLE_FN(A, θ) ≤ A", for the amplitudes for which it can hold; the value is then a number. -/
  in_range : ∀ A θ : Rat, 0 ≤ A → ∃ r, Machine.FloatVal.val ⟨f, fn A θ⟩ = some r ∧ -A ≤ r ∧ r ≤ A
  /-- P2, "|SAMPLE_FN(A, θ) − A·sin(2πθ)| ≤ EPS_SIN", for the amplitudes up to the greatest that BEGIN accepts
  (43_encoder.md R118; assumption log 4). -/
  accurate : ∀ (A θ r : Rat), 0 ≤ A → A ≤ 1 → Machine.FloatVal.val ⟨f, fn A θ⟩ = some r →
    |(r : Real) - (A : Real) * Real.sin (2 * Real.pi * (θ : Real))| ≤ ((eps : Rat) : Real)
  /-- P4, "SAMPLE_FN(A, 0) = 0". -/
  zero_phase : ∀ A : Rat, Machine.FloatVal.val ⟨f, fn A 0⟩ = some 0

/-- A SAMPLE_FN with its EPS_SIN, over a format (00_scope.md R6). -/
abbrev OpenParams (f : FloatFormat) : Type :=
  { p : (Rat → Rat → BitVec f.width) × NNRat // SampleFnLegal f p.1 p.2 }

/-- The FLOAT_FORMAT a block is built with, and which SAMPLE_FN and EPS_SIN: `params` names a pair of them over the
format, so that blocks may differ in it (00_scope.md R6; assumption log 3). -/
structure Sampling where
  format : FloatFormat
  params : Nat
  deriving DecidableEq, Repr

namespace Config

/-- The value this spec takes for MAX_SYMBOLS (00_scope.md R6): unbounded. -/
def maxSymbolsDefault : Option Nat := none

/-- The value this spec takes for MAX_SAMPLES (00_scope.md R6): unbounded. -/
def maxSamplesDefault : Option Nat := none

/-- The value this spec takes for FLOAT_FORMAT, and pair number 0 of the OPEN parameters; the number says nothing of the
pair (assumption log 3). -/
def samplingDefault : Sampling := ⟨.binary64, 0⟩

/-- The OPEN parameters, pair by pair (00_scope.md R6): no body. That a pair meeting P1 to P4 exists is the argument in
brackets, which `openParamsWitness` supplies; nothing of it is known of the pairs. -/
opaque openParams (f : FloatFormat) [Inhabited (OpenParams f)] (n : Nat) : OpenParams f

/-- The value +0 is 0 in every format. -/
theorem val_zero (f : FloatFormat) : Machine.FloatVal.val ⟨f, 0⟩ = some 0 := by
  simp [Machine.FloatVal.val]

/-- P1 to P4 can be met together, over every format: by the constant 0 with the bound 1. -/
def openParamsWitness (f : FloatFormat) : OpenParams f :=
  ⟨(fun _ _ => 0, 1), {
    in_range := fun A _ hA => ⟨0, val_zero f, by linarith, hA⟩
    accurate := fun A θ r h0 h1 hr => by
      obtain rfl : (0 : Rat) = r := Option.some.inj ((val_zero f).symm.trans hr)
      have h0' : (0 : Real) ≤ (A : Real) := by exact_mod_cast h0
      have h1' : (A : Real) ≤ 1 := by exact_mod_cast h1
      simpa [abs_mul, abs_of_nonneg h0'] using
        mul_le_one₀ h1' (abs_nonneg _) (Real.abs_sin_le_one (2 * Real.pi * (θ : Real)))
    zero_phase := fun _ => val_zero f }⟩

end Config

end Sys2Proof
end

