-- ==== Sys2Proof/Machine/Rom.lean ====
section
/-! DEFINITION. The CodeTable ROM: how it is read, and the US-TTY contents this spec takes
(20_memory.md R33 to R35; 40_codetable.md R58 to R89). -/

namespace Sys2Proof

/-- The 32 values of a code symbol, in rising order. -/
def allSyms : List Sym := (List.range 32).map (BitVec.ofNat 5)

/-- The shift bit of a ROM index: 0 = LETTERS, 1 = FIGURES (20_memory.md R33; 10_state.md R21). -/
def ShiftState.bit : ShiftState → BitVec 1
  | .letters => 0#1
  | .figures => 1#1

/-- The ROM index of a code in a half: `shift * 32 + code` (20_memory.md R33). -/
def romAddr (half : ShiftState) (code : Sym) : RomAddr := half.bit ++ code

/-- The 22-bit ROM entry at an index: `MemRead(ROM, addr, 22)` (20_memory.md R34). -/
def CodeTable.memRead (t : CodeTable) (addr : RomAddr) : RomEntry := t[addr.toNat]

/-- The entry of a code in one half of the table. -/
def CodeTable.entry (t : CodeTable) (half : ShiftState) (code : Sym) : RomEntry :=
  CodeTable.memRead t (romAddr half code)

/-- The values that "always carry NEUTRAL": NULL, LF, SPACE and CR (40_codetable.md R54). -/
def isNeutralCode (v : Sym) : Bool :=
  v == 0x00#5 || v == 0x02#5 || v == 0x04#5 || v == 0x08#5

/-- The values that "always carry SHIFT": FIGS and LTRS (40_codetable.md R54). -/
def isShiftCode (v : Sym) : Bool :=
  v == 0x1B#5 || v == 0x1F#5

/-- LETTERS half, codes 0x00 to 0x07 (40_codetable.md R58 to R65): NULL E LF A SPACE S I U. -/
def usTtyLetters0 : List RomEntry :=
  [⟨true, 0x00#21⟩, ⟨true, 0x45#21⟩, ⟨true, 0x0A#21⟩, ⟨true, 0x41#21⟩,
   ⟨true, 0x20#21⟩, ⟨true, 0x53#21⟩, ⟨true, 0x49#21⟩, ⟨true, 0x55#21⟩]

/-- LETTERS half, codes 0x08 to 0x0F (40_codetable.md R66 to R73): CR D R J N F C K. -/
def usTtyLetters1 : List RomEntry :=
  [⟨true, 0x0D#21⟩, ⟨true, 0x44#21⟩, ⟨true, 0x52#21⟩, ⟨true, 0x4A#21⟩,
   ⟨true, 0x4E#21⟩, ⟨true, 0x46#21⟩, ⟨true, 0x43#21⟩, ⟨true, 0x4B#21⟩]

/-- LETTERS half, codes 0x10 to 0x17 (40_codetable.md R74 to R81): T Z L W H Y P Q. -/
def usTtyLetters2 : List RomEntry :=
  [⟨true, 0x54#21⟩, ⟨true, 0x5A#21⟩, ⟨true, 0x4C#21⟩, ⟨true, 0x57#21⟩,
   ⟨true, 0x48#21⟩, ⟨true, 0x59#21⟩, ⟨true, 0x50#21⟩, ⟨true, 0x51#21⟩]

/-- LETTERS half, codes 0x18 to 0x1F (40_codetable.md R82 to R89): O B G FIGS M X V LTRS. -/
def usTtyLetters3 : List RomEntry :=
  [⟨true, 0x4F#21⟩, ⟨true, 0x42#21⟩, ⟨true, 0x47#21⟩, ⟨false, 0x00#21⟩,
   ⟨true, 0x4D#21⟩, ⟨true, 0x58#21⟩, ⟨true, 0x56#21⟩, ⟨false, 0x00#21⟩]

/-- FIGURES half, codes 0x00 to 0x07 (40_codetable.md R58 to R65): NULL 3 LF - SPACE BELL 8 7. -/
def usTtyFigures0 : List RomEntry :=
  [⟨true, 0x00#21⟩, ⟨true, 0x33#21⟩, ⟨true, 0x0A#21⟩, ⟨true, 0x2D#21⟩,
   ⟨true, 0x20#21⟩, ⟨true, 0x07#21⟩, ⟨true, 0x38#21⟩, ⟨true, 0x37#21⟩]

/-- FIGURES half, codes 0x08 to 0x0F (40_codetable.md R66 to R73): CR $ 4 ' , ! : (. -/
def usTtyFigures1 : List RomEntry :=
  [⟨true, 0x0D#21⟩, ⟨true, 0x24#21⟩, ⟨true, 0x34#21⟩, ⟨true, 0x27#21⟩,
   ⟨true, 0x2C#21⟩, ⟨true, 0x21#21⟩, ⟨true, 0x3A#21⟩, ⟨true, 0x28#21⟩]

/-- FIGURES half, codes 0x10 to 0x17 (40_codetable.md R74 to R81): 5 " ) 2 # 6 0 1. -/
def usTtyFigures2 : List RomEntry :=
  [⟨true, 0x35#21⟩, ⟨true, 0x22#21⟩, ⟨true, 0x29#21⟩, ⟨true, 0x32#21⟩,
   ⟨true, 0x23#21⟩, ⟨true, 0x36#21⟩, ⟨true, 0x30#21⟩, ⟨true, 0x31#21⟩]

/-- FIGURES half, codes 0x18 to 0x1F (40_codetable.md R82 to R89): 9 ? & FIGS . / ; LTRS. -/
def usTtyFigures3 : List RomEntry :=
  [⟨true, 0x39#21⟩, ⟨true, 0x3F#21⟩, ⟨true, 0x26#21⟩, ⟨false, 0x00#21⟩,
   ⟨true, 0x2E#21⟩, ⟨true, 0x2F#21⟩, ⟨true, 0x3B#21⟩, ⟨false, 0x00#21⟩]

/-- The US-TTY table, the value of CODE_TABLE this spec takes (00_scope.md R6; 40_codetable.md R58 to R89). An
entry with present = 0 holds the character 0, which no lookup reads (assumption log 7). The values are the spec's general knowledge (assumption log 14). -/
def usTty : CodeTable :=
  ⟨(usTtyLetters0 ++ usTtyLetters1 ++ usTtyLetters2 ++ usTtyLetters3 ++
    usTtyFigures0 ++ usTtyFigures1 ++ usTtyFigures2 ++ usTtyFigures3).toArray, rfl⟩

end Sys2Proof
end

