-- ==== Sys2Proof/Machine/State.lean ====
section
/-! DEFINITION. The state of the block: every item of 10_state.md R13 under its own name, the build-time parameters
of one block (00_scope.md R6), and what the outside world does to it: the configuration bus and the schedule of
host and block moves (00_scope.md R11; 70_reset_and_hazards.md R151). Plain data throughout. -/

namespace Sys2Proof.Machine

/-- PHASE, 2 bits (10_state.md R20). -/
inductive Phase where
  | idle
  | accept
  | synth
  | done
  deriving DecidableEq, Repr

/-- ERR, 2 bits; "code 1 is never held in ERR" (10_state.md R22). -/
inductive ErrCode where
  | none
  | invalidConfig
  | unsupportedCharacter
  deriving DecidableEq, Repr

/-- RESULT, 2 bits (10_state.md R23). -/
inductive ResultCode where
  | none
  | ok
  | invalidConfig
  | unsupportedCharacter
  deriving DecidableEq, Repr

/-- The configuration register CFG: the valid bit and the eight fields (10_state.md R16). -/
structure CfgReg where
  valid : Bool
  data : CfgData
  deriving DecidableEq, Repr

/-- One WARN entry: the index and the character as received (10_state.md R27). -/
structure WarnRecord where
  index : Nat
  char : Char21
  deriving DecidableEq, Repr

/-- One output sample, FLOAT or INT16 as CFG.outputFormat says (10_state.md R30). -/
inductive Sample where
  | float (v : FloatVal)
  | int16 (q : Pcm16)
  deriving DecidableEq, Repr

/-- One move of the two agents (00_scope.md R11; 70_reset_and_hazards.md R151), or the reset input (R141). -/
inductive Event where
  /-- The host issues a command word; `bus` is what the configuration bus carries in that step
  (30_encoding.md R47). -/
  | command (w : Word) (bus : CfgData)
  /-- A host step with no command. -/
  | idle
  /-- The block's turn: it takes its SYNTH step if that is enabled. -/
  | synth
  /-- The host polls STATUS until PHASE = DONE, the block moving meanwhile: WAIT (30_encoding.md R53). -/
  | wait
  /-- The reset input; `unspecified` is what the CFG fields other than valid hold afterwards, any value
  (70_reset_and_hazards.md R141; assumption log 5). -/
  | reset (unspecified : CfgData)
  deriving DecidableEq, Repr

/-- The state. The fields from `cfg` to `outbuf`, with `rom`, are exactly the table of 10_state.md R13. -/
structure State where
  /-- The CodeTable ROM, immutable (20_memory.md R35). -/
  rom : CodeTable
  /-- MAX_SYMBOLS, `none` for unbounded; fixed per block (00_scope.md R6; assumption log 9). -/
  maxSymbols : Option Nat
  /-- MAX_SAMPLES, `none` for unbounded; fixed per block (00_scope.md R6). -/
  maxSamples : Option Nat
  /-- FLOAT_FORMAT, and which SAMPLE_FN and EPS_SIN; fixed per block (00_scope.md R6; assumption log 3). -/
  sampling : Sampling
  cfg : CfgReg
  phase : Phase
  /-- SS, the shift-state register (10_state.md R21). -/
  ss : ShiftState
  err : ErrCode
  errIndex : Nat
  errChar : Char21
  result : ResultCode
  /-- CMDERR, sticky (10_state.md R24). -/
  cmdErr : Bool
  /-- CAPERR, sticky (10_state.md R24). -/
  capErr : Bool
  charIdx : Nat
  symq : List Sym
  warn : List WarnRecord
  nTotal : Nat
  nSamp : Nat
  /-- THETA, in turns (10_state.md R29). -/
  theta : Rat
  outbuf : List Sample
  /-- The configuration bus as the host drives it: an input, no register of the block. -/
  bus : CfgData
  /-- The moves still to come, first one first: the outside world's, no register of the block
  (assumption log 2). Empty: the block moves alone. -/
  schedule : List Event
  deriving DecidableEq, Repr

/-- Why the machine stops, or a read returns no value. -/
inductive Fault where
  /-- Raised by a SYNTH step at a sample index that lies in no element. 42_synthesizer.md R106 shows that none
  such is reached; a state that no run reaches has no successor (assumption log 12). Safe. -/
  | noElementForSample
  /-- Raised by a read port, never by a step: a read of WARN[i], SYMQ[i] or OUTBUF[i] at or past the length is
  "a host error: stuck, never a value" (10_state.md R19). Safe. -/
  | readPastEnd
  deriving DecidableEq, Repr

/-- Why an instruction has no meaning. -/
inductive Refusal where
  /-- Raised by an arm of exec that has no meaning yet; none is left. Safe. -/
  | notModelled (mnemonic : String)
  /-- Raised by step: the ROM is no legal CODE_TABLE, and "A table that fails one of them is refused by the
  model" (40_codetable.md R57; 93_implementation_defined.md I2). Safe. -/
  | illegalCodeTable
  /-- Raised by a code symbol that is not the one being sent: the SYNTH step is "not enabled" for it
  (43_encoder.md R115; assumption log 1). No step of the machine runs a symbol so. Safe. -/
  | symbolNotOnLine
  deriving DecidableEq, Repr

/-- The values State.reset holds where the spec says "unspecified": the CFG fields other than valid, and the bus.
Assumption log 5 (DESIGN CHOICE). -/
def CfgData.zero : CfgData where
  baudRate := 0
  sampleRate := 0
  markFrequency := 0
  spaceFrequency := 0
  stopBitMultiplier := 0
  amplitude := 0
  skipUnknownChars := false
  outputFormat := .float

/-- The block right after reset (70_reset_and_hazards.md R141; the "reset" column of 10_state.md R13), built with
the parameters this spec takes (00_scope.md R6). -/
def State.reset : State where
  rom := usTty
  maxSymbols := Config.maxSymbolsDefault
  maxSamples := Config.maxSamplesDefault
  sampling := Config.samplingDefault
  cfg := ⟨false, CfgData.zero⟩
  phase := .idle
  ss := .letters
  err := .none
  errIndex := 0
  errChar := 0
  result := .none
  cmdErr := false
  capErr := false
  charIdx := 0
  symq := []
  warn := []
  nTotal := 0
  nSamp := 0
  theta := 0
  outbuf := []
  bus := CfgData.zero
  schedule := []

end Sys2Proof.Machine
end

