-- ==== Sys2Proof/Machine/Flags.lean ====
section
/-! DEFINITION. The flags and checks: the STATUS word (10_state.md R18), the configuration check
(43_encoder.md R118), the capacity check (60_exceptions.md R131) and the codes of the status fields. -/

namespace Sys2Proof.Machine

/-- PHASE's code (10_state.md R18, R20). -/
def Phase.code : Phase → BitVec 2
  | .idle => 0#2
  | .accept => 1#2
  | .synth => 2#2
  | .done => 3#2

/-- RESULT's code (10_state.md R18, R23). -/
def ResultCode.code : ResultCode → BitVec 2
  | .none => 0#2
  | .ok => 1#2
  | .invalidConfig => 2#2
  | .unsupportedCharacter => 3#2

/-- ERR's code: the same codes as RESULT (10_state.md R22). -/
def ErrCode.code : ErrCode → BitVec 2
  | .none => 0#2
  | .invalidConfig => 2#2
  | .unsupportedCharacter => 3#2

/-- `RESULT <- ERR` (43_encoder.md R121). -/
def ErrCode.toResult : ErrCode → ResultCode
  | .none => .none
  | .invalidConfig => .invalidConfig
  | .unsupportedCharacter => .unsupportedCharacter

/-- outputFormat's code: FLOAT = 0, INT16 = 1 (10_state.md R16). -/
def OutputFormat.code : OutputFormat → BitVec 1
  | .float => 0#1
  | .int16 => 1#1

/-- The STATUS word (10_state.md R18): PHASE [1:0], RESULT [3:2], CMDERR [4], CAPERR [5], SS [6], CFG.valid [7],
zero above. -/
def State.status (s : State) : Word :=
  0#24 ++ BitVec.ofBool s.cfg.valid ++ s.ss.bit ++ BitVec.ofBool s.capErr ++ BitVec.ofBool s.cmdErr ++
    ResultCode.code s.result ++ Phase.code s.phase

/-- `cfgValid(CFG)` (43_encoder.md R118). -/
def cfgValid (c : CfgReg) : Bool :=
  c.valid
    && decide (0 < c.data.baudRate)
    && decide (0 < c.data.sampleRate)
    && decide (c.data.markFrequency ≠ c.data.spaceFrequency)
    && decide (0 < c.data.amplitude) && decide (c.data.amplitude ≤ 1)
    && decide (1 ≤ c.data.stopBitMultiplier)
    && decide (0 < c.data.markFrequency) && decide (0 < c.data.spaceFrequency)

/-- A count is over a capacity: `n > MAX`, never for an unbounded one (60_exceptions.md R131). -/
def exceeds (n : Nat) : Option Nat → Bool
  | none => false
  | some m => decide (m < n)

end Sys2Proof.Machine
end

