-- ==== Sys2Proof/Machine/Operands.lean ====
section
/-! DEFINITION. The operands: what a character is to the block. Case folding, the forward and the inverse lookup in
the CodeTable ROM, and the tag of a symbol (40_codetable.md R54 to R56, R90, R91). PUSH's operand is cut from its
word in Decode.lean; CFG's operand is State.bus. -/

namespace Sys2Proof.Machine

/-- `fold(c)`: exactly the 26 ASCII lowercase letters fold (40_codetable.md R56). -/
def fold (c : Char21) : Char21 :=
  if 0x61 ≤ c.toNat ∧ c.toNat ≤ 0x7A then c - 0x20 else c

/-- The ROM holds character c at a code of a half. -/
def holdsChar (rom : CodeTable) (half : ShiftState) (c : Char21) (code : Sym) : Bool :=
  let e := CodeTable.entry rom half code
  e.present && e.char == c

/-- c is a Unicode scalar value: no surrogate, and at most 0x10FFFF (10_state.md R28). -/
def isScalar (c : Char21) : Bool :=
  decide (c.toNat < 0xD800) || (decide (0xDFFF < c.toNat) && decide (c.toNat ≤ 0x10FFFF))

/-- The three branches of `symbolFor` for a folded character (40_codetable.md R90): both halves, LETTERS, FIGURES. -/
def lookupFolded (rom : CodeTable) (c' : Char21) : Option (Sym × ReqShift) :=
  match allSyms.find? (fun k => holdsChar rom .letters c' k && holdsChar rom .figures c' k) with
  | some k => some (k, .neutral)
  | none =>
    match allSyms.find? (holdsChar rom .letters c') with
    | some k => some (k, .letters)
    | none =>
      match allSyms.find? (holdsChar rom .figures c') with
      | some k => some (k, .figures)
      | none => none

/-- `symbolFor(c)` (40_codetable.md R90): the branches in the rule's order. DESIGN CHOICE (assumption log 18): a
character that is no scalar value is unsupported whatever the table holds, as R90's corner cases, 10_state.md R28,
30_encoding.md R49 and D15 say; R90's pseudocode, and R57, which lets a legal table hold one, would map it. A legal
table has at most one match in each branch; of several the lowest code is taken, which only a table that R57
refuses can show (assumption log 12). -/
def symbolFor (rom : CodeTable) (c : Char21) : Option (Sym × ReqShift) :=
  if isScalar c then lookupFolded rom (fold c) else none

/-- The half `characterFor` reads: NEUTRAL reads the LETTERS half (40_codetable.md R91). -/
def ReqShift.half : ReqShift → ShiftState
  | .figures => .figures
  | .letters => .letters
  | .neutral => .letters

/-- `characterFor(code, s)`, the inverse lookup (40_codetable.md R91). R91 says that "by W2" a NEUTRAL code holds the
same character in both halves, so that the half NEUTRAL reads would not matter; W2's words do not make a table do so.
For a legal table that does not, NEUTRAL reads the LETTERS half, as R91's pseudocode does (DESIGN CHOICE, assumption
log 10). -/
def characterFor (rom : CodeTable) (code : Sym) (s : ReqShift) : Option Char21 :=
  let e := CodeTable.entry rom (ReqShift.half s) code
  if e.present then some e.char else none

/-- The tag of a symbol taken from a half (40_codetable.md R54). -/
def symbolTag (v : Sym) (half : ShiftState) : Tag :=
  if isShiftCode v then .shift
  else if isNeutralCode v then .neutral
  else match half with
    | .letters => .letters
    | .figures => .figures

/-- The CodeSymbol of a character: its value with its tag (40_codetable.md R54). -/
def codeSymbolFor (rom : CodeTable) (c : Char21) : Option CodeSymbol :=
  match symbolFor rom c with
  | some (v, req) => some ⟨v, symbolTag v (ReqShift.half req)⟩
  | none => none

end Sys2Proof.Machine
end

