-- ==== Sys2Proof/Machine/Samples.lean ====
section
/-! DEFINITION. Sample values: SAMPLE_FN and EPS_SIN of a block (42_synthesizer.md R109), and the output conversion
(R110). -/

namespace Sys2Proof.Machine

/-- The OPEN parameters a block is built with (00_scope.md R6). -/
def openParamsOf (p : Sampling) : OpenParams p.format :=
  @Config.openParams p.format ⟨Config.openParamsWitness p.format⟩ p.params

/-- `SAMPLE_FN(A, θ)` of a block, a value of its FLOAT_FORMAT (42_synthesizer.md R109): the free value of the model.
Nothing is known of it but P1 to P4. Assumption log 3. -/
def sampleFn (p : Sampling) (A θ : Rat) : FloatVal := ⟨p.format, (openParamsOf p).1.1 A θ⟩

/-- `EPS_SIN` of a block (00_scope.md R6): "a non-negative rational". Assumption log 4. -/
def epsSin (p : Sampling) : NNRat := (openParamsOf p).1.2

/-- The INT16 value of a sample: `sat16(round_half_away(s * 32767))` (42_synthesizer.md R110). An infinity or a NaN
has no exact value; SAMPLE_FN never gives one (P3), and the 0 that stands for it here is reached by no run
(assumption log 8). -/
def pcmOf (v : FloatVal) : Int := sat16 (roundHalfAway ((FloatVal.val v).getD 0 * 32767))

/-- `conv(s)` (42_synthesizer.md R110). -/
def conv : OutputFormat → FloatVal → Sample
  | .float, v => .float v
  | .int16, v => .int16 (BitVec.ofInt 16 (pcmOf v))

/-- `sext_32(q[15:0])`: an INT16 sample widened (42_synthesizer.md R110; 00_scope.md R9). -/
def widenSample (q : Pcm16) : Word := q.signExtend 32

end Sys2Proof.Machine
end

