-- ==== Sys2Proof/Machine/Timing.lean ====
section
/-! DEFINITION. Frames and time: the seven elements of a symbol's frame (41_framer.md R97), the element boundaries
(42_synthesizer.md R104, R105) and the element of a sample (R106). -/

namespace Sys2Proof.Machine

/-- The tone of a data bit: "mark=1/space=0" (30_encoding.md R51). -/
def bitTone (b : Bool) : Tone := if b then .mark else .space

/-- The BitFrame of symbol v, M the stop bit multiplier: start, v[0] to v[4], stop (41_framer.md R97). -/
def frame (v : Sym) (M : Rat) : List Element :=
  [⟨.space, 1⟩,
   ⟨bitTone (v.getLsbD 0), 1⟩,
   ⟨bitTone (v.getLsbD 1), 1⟩,
   ⟨bitTone (v.getLsbD 2), 1⟩,
   ⟨bitTone (v.getLsbD 3), 1⟩,
   ⟨bitTone (v.getLsbD 4), 1⟩,
   ⟨.mark, M⟩]

/-- `elements(SYMQ)`: the frames of the queue in order (41_framer.md R97). -/
def elements (q : List Sym) (M : Rat) : List Element := q.flatMap fun v => frame v M

/-- The tone at position i of the frame of v, 0 ≤ i ≤ 6 (41_framer.md R97). A larger i is no position of a frame,
and no caller passes one: it gives the stop element's MARK (assumption log 12). -/
def frameTone (v : Sym) : Nat → Tone
  | 0 => .space
  | 1 => bitTone (v.getLsbD 0)
  | 2 => bitTone (v.getLsbD 1)
  | 3 => bitTone (v.getLsbD 2)
  | 4 => bitTone (v.getLsbD 3)
  | 5 => bitTone (v.getLsbD 4)
  | _ => .mark

/-- D_k, the start of element k in bit times: `D_{7j+i} = j * (6 + M) + i` (42_synthesizer.md R104). -/
def startTime (M : Rat) (k : Nat) : Rat := ((k / 7 : Nat) : Rat) * (6 + M) + ((k % 7 : Nat) : Rat)

/-- B_k, the sample index at which element k begins: `round_half_up(D_k * fs / baud)` (42_synthesizer.md R104).
A configuration that BEGIN refuses may make it negative or divide by zero; no message has one (assumption log 12). -/
def boundary (c : CfgData) (k : Nat) : Nat :=
  (roundHalfUp (startTime c.stopBitMultiplier k * c.sampleRate / c.baudRate)).toNat

/-- NTOTAL of a message with F symbols: B_E with E = 7 * F (42_synthesizer.md R105). -/
def messageSamples (c : CfgData) (F : Nat) : Nat := boundary c (7 * F)

/-- `elemOf(n)` among the first E elements: the k with `B_k ≤ n < B_{k+1}` (42_synthesizer.md R106). -/
def elemOf (c : CfgData) (E n : Nat) : Option Nat :=
  (List.range E).find? fun k => decide (boundary c k ≤ n) && decide (n < boundary c (k + 1))

/-- `freq(tone)` (42_synthesizer.md R103). -/
def freq (c : CfgData) : Tone → Rat
  | .mark => c.markFrequency
  | .space => c.spaceFrequency

/-- The tone of sample n of a message: the tone of its element (42_synthesizer.md R106, R107). -/
def toneAt (c : CfgData) (q : List Sym) (n : Nat) : Option Tone :=
  match elemOf c (7 * q.length) n with
  | some k => (q[k / 7]?).map fun v => frameTone v (k % 7)
  | none => none

/-- The phase after a sample of a tone: `frac(THETA + freq(tone)/fs)` (42_synthesizer.md R107). -/
def advancePhase (c : CfgData) (t : Tone) (theta : Rat) : Rat :=
  frac (theta + freq c t / c.sampleRate)

/-- The current element K: the element that contains sample NSAMP (10_state.md R31). Only a message being
synthesized has one. -/
def State.currentElement (s : State) : Option Nat :=
  if s.phase = .synth ∧ s.nSamp < s.nTotal then elemOf s.cfg.data (7 * s.symq.length) s.nSamp else none

/-- The current frame, `floor(K / 7)`: the index into SYMQ of the frame being sent (10_state.md R31). -/
def State.currentFrame (s : State) : Option Nat := s.currentElement.map (· / 7)

/-- The code symbol on the line: SYMQ at the current frame. This is what the block fetches in a SYNTH step. -/
def State.onLine (s : State) : Option Sym :=
  match s.currentFrame with
  | some j => s.symq[j]?
  | none => none

/-- Chunk j, the samples of frame j already made: the indexes from B_{7j} to B_{7(j+1)} (10_state.md R31;
70_reset_and_hazards.md R146); no sample where SYMQ has no frame j, since none has its element there. The boundaries are
those of the present CFG. Once a CFG command is taken in DONE, which R145 allows, that is no longer the configuration the
finished message was made with, and the spec does not say which one B_k then takes: the present one is the model's
(DESIGN CHOICE, assumption log 19). -/
def State.chunk (s : State) (j : Nat) : List Sample :=
  if j < s.symq.length then
    (s.outbuf.take (boundary s.cfg.data (7 * (j + 1)))).drop (boundary s.cfg.data (7 * j))
  else []

/-- Chunk j is complete: SYMQ has a frame j and `SAMPLE_COUNT ≥ B_{7(j+1)}` (70_reset_and_hazards.md R146), B_k by the
present CFG, as in `State.chunk`: after a CFG in DONE a complete chunk may read as incomplete (DESIGN CHOICE, assumption
log 19). 42_synthesizer.md R104 gives B_k for 0 ≤ k ≤ E only, so R146 does not say whether chunk j is complete where SYMQ has
no frame j: here it is not (DESIGN CHOICE, assumption log 20). -/
def State.chunkComplete (s : State) (j : Nat) : Bool :=
  decide (j < s.symq.length) && decide (boundary s.cfg.data (7 * (j + 1)) ≤ s.outbuf.length)

end Sys2Proof.Machine
end

