-- ==== Sys2Proof/Machine/Ops.lean ====
section
/-! DEFINITION. The named operations on the registers: each is one indivisible update (00_scope.md R10;
20_memory.md R40). The block has no memory to operate on (20_memory.md R33). What other machines call taking an
exception is here `raiseFault` and `latchUnsupported` with `closeFailed`, the error entry of 60_exceptions.md R133;
the way on is `openMessage`: "There is no return-from-error command" (60_exceptions.md R134). -/

namespace Sys2Proof.Machine

/-- The two fault causes (60_exceptions.md R126). -/
inductive FaultKind where
  | illegalCommand
  | capacity
  deriving DecidableEq, Repr

/-- `raise Fault(kind)`: set the sticky bit; "A fault leaves the state as the illegal command found it, except the
fault bit" (60_exceptions.md R130, R131, R133). -/
def raiseFault (k : FaultKind) (s : State) : State :=
  match k with
  | .illegalCommand => { s with cmdErr := true }
  | .capacity => { s with capErr := true }

/-- A command's effect in the phases where it is legal, ILLEGAL_COMMAND in the others (43_encoder.md R115;
60_exceptions.md R130). -/
def inPhases (legal : List Phase) (s : State) (effect : State → State) :
    Host.Outcome State Fault Refusal :=
  if legal.contains s.phase then .next (effect s) else .next (raiseFault .illegalCommand s)

/-- `CFG <- cfg; CFG.valid <- 1`: CFG's effect (43_encoder.md R117). -/
def loadCfg (d : CfgData) (s : State) : State := { s with cfg := ⟨true, d⟩ }

/-- BEGIN's effect (43_encoder.md R119). -/
def openMessage (s : State) : State :=
  { s with
    ss := .letters, charIdx := 0, symq := [], warn := []
    errIndex := 0, errChar := 0, result := .none
    nTotal := 0, nSamp := 0, theta := 0, outbuf := []
    err := if cfgValid s.cfg then .none else .invalidConfig
    phase := .accept }

/-- `CHARIDX <- CHARIDX + 1` (41_framer.md R95). -/
def countChar (s : State) : State := { s with charIdx := s.charIdx + 1 }

/-- `WARN <- WARN ++ [(i, c)]` (41_framer.md R98). -/
def appendWarning (i : Nat) (c : Char21) (s : State) : State := { s with warn := s.warn ++ [⟨i, c⟩] }

/-- `latch Error(UNSUPPORTED_CHARACTER, (i, c))` (41_framer.md R99). -/
def latchUnsupported (i : Nat) (c : Char21) (s : State) : State :=
  { s with err := .unsupportedCharacter, errIndex := i, errChar := c }

/-- `SYMQ <- SYMQ ++ out; SS <- ss'` (41_framer.md R95). -/
def appendSymbols (out : List Sym) (ss' : ShiftState) (s : State) : State :=
  { s with symq := s.symq ++ out, ss := ss' }

/-- LTRS, the shift-control symbol 0x1F (40_codetable.md R89). -/
def ltrs : Sym := 0x1F#5

/-- FIGS, the shift-control symbol 0x1B (40_codetable.md R85). -/
def figs : Sym := 0x1B#5

/-- `shiftFor(req, SS)`: the symbols emitted before the character, and SS afterwards (41_framer.md R96). -/
def shiftFor : ReqShift → ShiftState → List Sym × ShiftState
  | .letters, .letters => ([], .letters)
  | .letters, .figures => ([ltrs], .letters)
  | .figures, .letters => ([figs], .figures)
  | .figures, .figures => ([], .figures)
  | .neutral, ss => ([], ss)

/-- FRAME_CHAR(c), PUSH's effect (41_framer.md R95). -/
def frameChar (c : Char21) (s : State) : State :=
  let s1 := countChar s
  if s.err ≠ .none then s1
  else
    match symbolFor s.rom c with
    | none =>
      if s.cfg.data.skipUnknownChars then appendWarning s.charIdx c s1
      else latchUnsupported s.charIdx c s1
    | some (v, req) =>
      let out := (shiftFor req s.ss).1 ++ [v]
      if exceeds (s.symq.length + out.length) s.maxSymbols then raiseFault .capacity s1
      else appendSymbols out (shiftFor req s.ss).2 s1

/-- The error entry: END on a failed message (43_encoder.md R121; 60_exceptions.md R133). -/
def closeFailed (s : State) : State := { s with symq := [], result := s.err.toResult, phase := .done }

/-- END on a good message that fits: `NTOTAL <- N; NSAMP <- 0; PHASE <- SYNTH` (43_encoder.md R121). -/
def startSynth (N : Nat) (s : State) : State := { s with nTotal := N, nSamp := 0, phase := .synth }

/-- END's effect (43_encoder.md R121). -/
def closeMessage (s : State) : State :=
  if s.err ≠ .none then closeFailed s
  else
    let N := messageSamples s.cfg.data s.symq.length
    if exceeds N s.maxSamples then raiseFault .capacity s else startSynth N s

/-- The last SYNTH step: `RESULT <- OK; PHASE <- DONE` (43_encoder.md R122). -/
def finishMessage (s : State) : State := { s with result := .ok, phase := .done }

/-- SYNTH_SAMPLE for a sample of tone t: the sample of the phase before the update, then the update
(42_synthesizer.md R108). -/
def emitSample (t : Tone) (s : State) : State :=
  { s with
    outbuf := s.outbuf ++ [conv s.cfg.data.outputFormat (sampleFn s.sampling s.cfg.data.amplitude s.theta)]
    theta := advancePhase s.cfg.data t s.theta
    nSamp := s.nSamp + 1 }

/-- The reset input (70_reset_and_hazards.md R141): every register at its reset value, `unspecified` the values of
the CFG fields the rule leaves unspecified; the ROM, the build-time parameters and the outside world stay. -/
def applyReset (unspecified : CfgData) (s : State) : State :=
  { s with
    phase := .idle, ss := .letters, err := .none, errIndex := 0, errChar := 0
    result := .none, cmdErr := false, capErr := false, charIdx := 0
    symq := [], warn := [], nTotal := 0, nSamp := 0, theta := 0, outbuf := []
    cfg := ⟨false, unspecified⟩ }

end Sys2Proof.Machine
end

