-- ==== Sys2Proof/Machine/Commands.lean ====
section
/-! DEFINITION. The five commands of the command port, one meaning each (43_encoder.md R115 to R121). -/

namespace Sys2Proof.Machine

/-- NOP (43_encoder.md R116): "Legal in every phase. It reads and writes nothing." -/
def execNop (s : State) : Host.Outcome State Fault Refusal := .next s

/-- CFG (43_encoder.md R117): legal in IDLE and DONE; loads the configuration bus. -/
def execCfg (s : State) : Host.Outcome State Fault Refusal :=
  inPhases [.idle, .done] s (loadCfg s.bus)

/-- BEGIN (43_encoder.md R119): legal in IDLE and DONE; opens a message. -/
def execBegin (s : State) : Host.Outcome State Fault Refusal :=
  inPhases [.idle, .done] s openMessage

/-- PUSH c (43_encoder.md R120): legal in ACCEPT only; performs FRAME_CHAR(c). -/
def execPush (c : Char21) (s : State) : Host.Outcome State Fault Refusal :=
  inPhases [.accept] s (frameChar c)

/-- END (43_encoder.md R121): legal in ACCEPT only; closes the message. -/
def execEnd (s : State) : Host.Outcome State Fault Refusal :=
  inPhases [.accept] s closeMessage

end Sys2Proof.Machine
end

