-- ==== Sys2Proof/Machine/Symbols.lean ====
section
/-! DEFINITION. The 32 code symbols of the line, one meaning each. A symbol acts while its frame is on the line: the
block's SYNTH step produces one sample of the frame's current element, its tone the symbol's own
(41_framer.md R97; 42_synthesizer.md R106 to R108; 30_encoding.md R51). How PUSH maps characters to symbols and
what emitting LTRS or FIGS does to SS is the Framer's part (Machine/Ops.lean, frameChar). Assumption log 1. -/

namespace Sys2Proof.Machine

/-- One SYNTH_SAMPLE of symbol v, when v is the symbol on the line (42_synthesizer.md R108): the element is elemOf(NSAMP)
and its position in the frame is the element number modulo 7 (41_framer.md R97). The SYNTH step of any other symbol
is "not enabled" (43_encoder.md R115). -/
def sendSymbol (v : Sym) (s : State) : Host.Outcome State Fault Refusal :=
  match s.currentElement with
  | some k =>
    if s.symq[k / 7]? = some v then .next (emitSample (frameTone v (k % 7)) s)
    else .refused .symbolNotOnLine
  | none => .refused .symbolNotOnLine

/-- ITA2_NUL, 0x00 (40_codetable.md R58). -/
def execIta2Nul (s : State) : Host.Outcome State Fault Refusal := sendSymbol 0x00#5 s

/-- ITA2_E|3, 0x01 (40_codetable.md R59). -/
def execIta2E3 (s : State) : Host.Outcome State Fault Refusal := sendSymbol 0x01#5 s

/-- ITA2_LF, 0x02 (40_codetable.md R60). -/
def execIta2Lf (s : State) : Host.Outcome State Fault Refusal := sendSymbol 0x02#5 s

/-- ITA2_A|-, 0x03 (40_codetable.md R61). -/
def execIta2ADash (s : State) : Host.Outcome State Fault Refusal := sendSymbol 0x03#5 s

/-- ITA2_SP, 0x04 (40_codetable.md R62). -/
def execIta2Sp (s : State) : Host.Outcome State Fault Refusal := sendSymbol 0x04#5 s

/-- ITA2_S|BEL, 0x05 (40_codetable.md R63). -/
def execIta2SBel (s : State) : Host.Outcome State Fault Refusal := sendSymbol 0x05#5 s

/-- ITA2_I|8, 0x06 (40_codetable.md R64). -/
def execIta2I8 (s : State) : Host.Outcome State Fault Refusal := sendSymbol 0x06#5 s

/-- ITA2_U|7, 0x07 (40_codetable.md R65). -/
def execIta2U7 (s : State) : Host.Outcome State Fault Refusal := sendSymbol 0x07#5 s

/-- ITA2_CR, 0x08 (40_codetable.md R66). -/
def execIta2Cr (s : State) : Host.Outcome State Fault Refusal := sendSymbol 0x08#5 s

/-- ITA2_D|$, 0x09 (40_codetable.md R67). -/
def execIta2DDollar (s : State) : Host.Outcome State Fault Refusal := sendSymbol 0x09#5 s

/-- ITA2_R|4, 0x0A (40_codetable.md R68). -/
def execIta2R4 (s : State) : Host.Outcome State Fault Refusal := sendSymbol 0x0A#5 s

/-- ITA2_J|', 0x0B (40_codetable.md R69). -/
def execIta2JApos (s : State) : Host.Outcome State Fault Refusal := sendSymbol 0x0B#5 s

/-- ITA2_N|,, 0x0C (40_codetable.md R70). -/
def execIta2NComma (s : State) : Host.Outcome State Fault Refusal := sendSymbol 0x0C#5 s

/-- ITA2_F|!, 0x0D (40_codetable.md R71). -/
def execIta2FBang (s : State) : Host.Outcome State Fault Refusal := sendSymbol 0x0D#5 s

/-- ITA2_C|:, 0x0E (40_codetable.md R72). -/
def execIta2CColon (s : State) : Host.Outcome State Fault Refusal := sendSymbol 0x0E#5 s

/-- ITA2_K|(, 0x0F (40_codetable.md R73). -/
def execIta2KParenL (s : State) : Host.Outcome State Fault Refusal := sendSymbol 0x0F#5 s

/-- ITA2_T|5, 0x10 (40_codetable.md R74). -/
def execIta2T5 (s : State) : Host.Outcome State Fault Refusal := sendSymbol 0x10#5 s

/-- ITA2_Z|", 0x11 (40_codetable.md R75). -/
def execIta2ZQuote (s : State) : Host.Outcome State Fault Refusal := sendSymbol 0x11#5 s

/-- ITA2_L|), 0x12 (40_codetable.md R76). -/
def execIta2LParenR (s : State) : Host.Outcome State Fault Refusal := sendSymbol 0x12#5 s

/-- ITA2_W|2, 0x13 (40_codetable.md R77). -/
def execIta2W2 (s : State) : Host.Outcome State Fault Refusal := sendSymbol 0x13#5 s

/-- ITA2_H|#, 0x14 (40_codetable.md R78). -/
def execIta2HHash (s : State) : Host.Outcome State Fault Refusal := sendSymbol 0x14#5 s

/-- ITA2_Y|6, 0x15 (40_codetable.md R79). -/
def execIta2Y6 (s : State) : Host.Outcome State Fault Refusal := sendSymbol 0x15#5 s

/-- ITA2_P|0, 0x16 (40_codetable.md R80). -/
def execIta2P0 (s : State) : Host.Outcome State Fault Refusal := sendSymbol 0x16#5 s

/-- ITA2_Q|1, 0x17 (40_codetable.md R81). -/
def execIta2Q1 (s : State) : Host.Outcome State Fault Refusal := sendSymbol 0x17#5 s

/-- ITA2_O|9, 0x18 (40_codetable.md R82). -/
def execIta2O9 (s : State) : Host.Outcome State Fault Refusal := sendSymbol 0x18#5 s

/-- ITA2_B|?, 0x19 (40_codetable.md R83). -/
def execIta2BQuestion (s : State) : Host.Outcome State Fault Refusal := sendSymbol 0x19#5 s

/-- ITA2_G|&, 0x1A (40_codetable.md R84). -/
def execIta2GAmp (s : State) : Host.Outcome State Fault Refusal := sendSymbol 0x1A#5 s

/-- ITA2_FIGS, 0x1B (40_codetable.md R85). -/
def execIta2Figs (s : State) : Host.Outcome State Fault Refusal := sendSymbol 0x1B#5 s

/-- ITA2_M|., 0x1C (40_codetable.md R86). -/
def execIta2MDot (s : State) : Host.Outcome State Fault Refusal := sendSymbol 0x1C#5 s

/-- ITA2_X|/, 0x1D (40_codetable.md R87). -/
def execIta2XSlash (s : State) : Host.Outcome State Fault Refusal := sendSymbol 0x1D#5 s

/-- ITA2_V|;, 0x1E (40_codetable.md R88). -/
def execIta2VSemi (s : State) : Host.Outcome State Fault Refusal := sendSymbol 0x1E#5 s

/-- ITA2_LTRS, 0x1F (40_codetable.md R89). -/
def execIta2Ltrs (s : State) : Host.Outcome State Fault Refusal := sendSymbol 0x1F#5 s

end Sys2Proof.Machine
end

