-- ==== Sys2Proof/Machine/Dispatch.lean ====
section
/-! DEFINITION. The dispatch: one arm for each instruction. -/

namespace Sys2Proof.Machine

def exec (i : Instr) (s : State) : Host.Outcome State Fault Refusal :=
  match i with
  | .nop => Sys2Proof.Machine.execNop s
  | .cfg => Sys2Proof.Machine.execCfg s
  | .beginMsg => Sys2Proof.Machine.execBegin s
  | .push c => Sys2Proof.Machine.execPush c s
  | .endMsg => Sys2Proof.Machine.execEnd s
  | .ita2Nul => Sys2Proof.Machine.execIta2Nul s
  | .ita2E3 => Sys2Proof.Machine.execIta2E3 s
  | .ita2Lf => Sys2Proof.Machine.execIta2Lf s
  | .ita2ADash => Sys2Proof.Machine.execIta2ADash s
  | .ita2Sp => Sys2Proof.Machine.execIta2Sp s
  | .ita2SBel => Sys2Proof.Machine.execIta2SBel s
  | .ita2I8 => Sys2Proof.Machine.execIta2I8 s
  | .ita2U7 => Sys2Proof.Machine.execIta2U7 s
  | .ita2Cr => Sys2Proof.Machine.execIta2Cr s
  | .ita2DDollar => Sys2Proof.Machine.execIta2DDollar s
  | .ita2R4 => Sys2Proof.Machine.execIta2R4 s
  | .ita2JApos => Sys2Proof.Machine.execIta2JApos s
  | .ita2NComma => Sys2Proof.Machine.execIta2NComma s
  | .ita2FBang => Sys2Proof.Machine.execIta2FBang s
  | .ita2CColon => Sys2Proof.Machine.execIta2CColon s
  | .ita2KParenL => Sys2Proof.Machine.execIta2KParenL s
  | .ita2T5 => Sys2Proof.Machine.execIta2T5 s
  | .ita2ZQuote => Sys2Proof.Machine.execIta2ZQuote s
  | .ita2LParenR => Sys2Proof.Machine.execIta2LParenR s
  | .ita2W2 => Sys2Proof.Machine.execIta2W2 s
  | .ita2HHash => Sys2Proof.Machine.execIta2HHash s
  | .ita2Y6 => Sys2Proof.Machine.execIta2Y6 s
  | .ita2P0 => Sys2Proof.Machine.execIta2P0 s
  | .ita2Q1 => Sys2Proof.Machine.execIta2Q1 s
  | .ita2O9 => Sys2Proof.Machine.execIta2O9 s
  | .ita2BQuestion => Sys2Proof.Machine.execIta2BQuestion s
  | .ita2GAmp => Sys2Proof.Machine.execIta2GAmp s
  | .ita2Figs => Sys2Proof.Machine.execIta2Figs s
  | .ita2MDot => Sys2Proof.Machine.execIta2MDot s
  | .ita2XSlash => Sys2Proof.Machine.execIta2XSlash s
  | .ita2VSemi => Sys2Proof.Machine.execIta2VSemi s
  | .ita2Ltrs => Sys2Proof.Machine.execIta2Ltrs s

end Sys2Proof.Machine
end

