-- ==== Sys2Proof/WellFormed.lean ====
section
/-! DEFINITION. Well-formedness. Every term of Instr is well formed: the one operand, PUSH's character, has its
width in its type, and "Every value of CP is a legal PUSH operand" (30_encoding.md R49). What can be ill formed is
a value of the CODE_TABLE parameter: 40_codetable.md R57 sets four checks on it, W1 to W4, and "A table that fails
one of them is refused by the model" (Machine/Step.lean refuses it). -/

namespace Sys2Proof

/-- W1: "Within one half, no character appears at two codes" (40_codetable.md R57). -/
def CodeTable.w1 (t : CodeTable) : Bool :=
  [ShiftState.letters, ShiftState.figures].all fun half => allSyms.all fun a => allSyms.all fun b =>
    let x := CodeTable.entry t half a
    let y := CodeTable.entry t half b
    !(x.present && y.present && x.char == y.char) || a == b

/-- W2: "A character present in both halves appears at the same code in both, and that code is NEUTRAL"
(40_codetable.md R57); the NEUTRAL codes are the four of R54. No more than these words is checked (DESIGN CHOICE,
assumption log 10): a table whose code 0x00, 0x02, 0x04 or 0x08 holds different characters in the two halves, or one in
one half only, is accepted, though R91 says that by W2 such a code holds the same character in both. -/
def CodeTable.w2 (t : CodeTable) : Bool :=
  allSyms.all fun a => allSyms.all fun b =>
    let l := CodeTable.entry t .letters a
    let f := CodeTable.entry t .figures b
    !(l.present && f.present && l.char == f.char) || (a == b && isNeutralCode a)

/-- W3: "Codes 0x1B and 0x1F have present = 0 in both halves" (40_codetable.md R57). -/
def CodeTable.w3 (t : CodeTable) : Bool :=
  !(CodeTable.entry t .letters 0x1B#5).present && !(CodeTable.entry t .figures 0x1B#5).present &&
  !(CodeTable.entry t .letters 0x1F#5).present && !(CodeTable.entry t .figures 0x1F#5).present

/-- W4: "No character in the table lies in 0x61-0x7A" (40_codetable.md R57). -/
def CodeTable.w4 (t : CodeTable) : Bool :=
  [ShiftState.letters, ShiftState.figures].all fun half => allSyms.all fun a =>
    let x := CodeTable.entry t half a
    !(x.present && decide (0x61 ≤ x.char.toNat) && decide (x.char.toNat ≤ 0x7A))

/-- A legal value of the CODE_TABLE parameter: it meets the four checks of 40_codetable.md R57. -/
def CodeTable.wf (t : CodeTable) : Bool :=
  CodeTable.w1 t && CodeTable.w2 t && CodeTable.w3 t && CodeTable.w4 t

end Sys2Proof
end

