-- ==== Sys2Proof/Machine/Sequencer.lean ====
section
/-! DEFINITION. Who moves and what is fetched: a command word taken from the command port, or the code symbol on the
line taken from SYMQ in the block's own SYNTH step (00_scope.md R11; 43_encoder.md R115, R122). -/

namespace Sys2Proof.Machine

/-- Take the head of the schedule: `rest` is left of it. -/
def takeEvent (rest : List Event) (s : State) : State := { s with schedule := rest }

/-- The step in which a command word is taken samples the configuration bus (30_encoding.md R47). -/
def takeCommand (bus : CfgData) (rest : List Event) (s : State) : State :=
  { s with schedule := rest, bus := bus }

/-- One poll of a host that waits: the wait is over when STATUS reads PHASE = DONE (30_encoding.md R53). A poll reads a
port, so it changes no register (00_scope.md R11). -/
def pollDone (rest : List Event) (s : State) : State := if s.phase = .done then takeEvent rest s else s

/-- One command word: the command it encodes, or ILLEGAL_COMMAND (30_encoding.md R48; 60_exceptions.md R130). -/
def runCommand (w : Word) (s : State) : Host.Outcome State Fault Refusal :=
  match decode (.word w) with
  | .ok i => exec i s
  | .error _ => .next (raiseFault .illegalCommand s)

/-- One code symbol fetched from SYMQ. Every 5-bit value is assigned, so it is decoded (30_encoding.md R50). -/
def runSymbol (v : Sym) (s : State) : Host.Outcome State Fault Refusal := exec (decodeSymbol v) s

/-- The block's turn: the SYNTH step, "enabled exactly when PHASE = SYNTH" (43_encoder.md R115, R122). In the other
phases the block "takes no internal step" (60_exceptions.md R140). -/
def blockTurn (s : State) : Host.Outcome State Fault Refusal :=
  if s.phase = .synth then
    if s.nSamp = s.nTotal then .next (finishMessage s)
    else
      match s.onLine with
      | some v => runSymbol v s
      | none => .fault .noElementForSample
  else .next s

/-- The next move of the schedule; when nothing is scheduled, and while the host waits, the block's turn, so that a
SYNTH step that stays enabled is taken (70_reset_and_hazards.md R151; 30_encoding.md R53; assumption log 2). -/
def runSchedule (s : State) : Host.Outcome State Fault Refusal :=
  match s.schedule with
  | [] => blockTurn s
  | .idle :: rest => .next (takeEvent rest s)
  | .synth :: rest => blockTurn (takeEvent rest s)
  | .wait :: rest => blockTurn (pollDone rest s)
  | .command w bus :: rest => runCommand w (takeCommand bus rest s)
  | .reset unspecified :: rest => .next (applyReset unspecified (takeEvent rest s))

/-- A configuration under which the first sample of a message lies in its first element: two samples a bit. It is
used only to put a code symbol on the line from outside (State.withFetchWord; assumption log 6). -/
def fetchCfg : CfgData where
  baudRate := 1
  sampleRate := 2
  markFrequency := 1
  spaceFrequency := 2
  stopBitMultiplier := 1
  amplitude := 1
  skipUnknownChars := false
  outputFormat := .float

/-- The block sending sample 0 of a message that is the one symbol v, under the configuration d. -/
def lineState (v : Sym) (c : CfgReg) (s : State) : State :=
  { s with
    schedule := .synth :: s.schedule, phase := .synth, symq := [v], cfg := c
    nSamp := 0, nTotal := messageSamples c.data 1 }

/-- Put symbol v on the line, so that the next step fetches and runs it: with the present configuration if that
gives the first element a sample, else with fetchCfg. -/
def placeSymbol (v : Sym) (s : State) : State :=
  let t := lineState v s.cfg s
  if t.onLine = some v then t else lineState v ⟨true, fetchCfg⟩ s

/-- Put a command word on the command port, the bus as it is. -/
def placeCommand (w : Word) (s : State) : State :=
  { s with schedule := .command w s.bus :: s.schedule }

end Sys2Proof.Machine
end

