-- ==== Sys2Proof/Machine/Step.lean ====
section
/-! DEFINITION. One step of the machine: one move of the host or of the block. -/

namespace Sys2Proof.Machine

/-- One step. "A table that fails one of them is refused by the model" (40_codetable.md R57): no block is built with
a ROM that is no legal CODE_TABLE. -/
def step (s : State) : Host.Outcome State Fault Refusal :=
  if CodeTable.wf s.rom then runSchedule s else .refused .illegalCodeTable

/-- s with one instruction placed where the next step fetches: a row of at most 8 bits is a code symbol, put on the
line; a wider row is a command word, put on the command port (assumption log 6). A number over the row's space is
no unit of it and is not placed. -/
def State.withFetchWord (s : State) (nbits w : Nat) : State :=
  if nbits ≤ 8 then
    if w < 32 then placeSymbol (BitVec.ofNat 5 w) s else s
  else
    if w < 2 ^ 32 then placeCommand (BitVec.ofNat 32 w) s else s

end Sys2Proof.Machine
end

