-- ==== Sys2Proof/Machine/Reference.lean ====
section
/-! DEFINITION. The reference function ENCODE(text, cfg) (43_encoder.md R123), written apart from the commands, and
the command sequence that the law of R123 compares it with. -/

namespace Sys2Proof.Machine

/-- The three results of ENCODE (43_encoder.md R123). -/
inductive EncodeResult where
  | ok (samples : List Sample) (warnings : List WarnRecord)
  | invalidConfig
  | unsupportedCharacter (index : Nat) (char : Char21)
  deriving DecidableEq, Repr

/-- What framing a text leaves: the symbols, the warnings, and the unsupported character that ended it, if one did. -/
structure Framed where
  symbols : List Sym
  warnings : List WarnRecord
  stopped : Option (Nat × Char21)
  deriving DecidableEq, Repr

/-- ENCODE's loop over the text from index i, with its SS, Q and W (43_encoder.md R123). -/
def frameFrom (rom : CodeTable) (skip : Bool) : Nat → ShiftState → List Sym → List WarnRecord → List Char21 → Framed
  | _, _, Q, W, [] => ⟨Q, W, none⟩
  | i, ss, Q, W, c :: text =>
    match symbolFor rom c with
    | none =>
      if skip then frameFrom rom skip (i + 1) ss Q (W ++ [⟨i, c⟩]) text else ⟨Q, W, some (i, c)⟩
    | some (v, req) =>
      frameFrom rom skip (i + 1) (shiftFor req ss).2 (Q ++ ((shiftFor req ss).1 ++ [v])) W text

/-- Framing a whole text: `SS <- LETTERS; Q <- []; W <- []` (43_encoder.md R123). -/
def frameText (rom : CodeTable) (d : CfgData) (text : List Char21) : Framed :=
  frameFrom rom d.skipUnknownChars 0 .letters [] [] text

/-- The phase of sample n of the message Q: the running update of 42_synthesizer.md R107 from 0. A sample that lies
in no element would not advance it; a legal configuration has none (R106). -/
def phaseAt (d : CfgData) (Q : List Sym) : Nat → Rat
  | 0 => 0
  | n + 1 =>
    match toneAt d Q n with
    | some t => advancePhase d t (phaseAt d Q n)
    | none => phaseAt d Q n

/-- Sample n of the message Q: `conv(SAMPLE_FN(amplitude, θ_n))` (43_encoder.md R123). -/
def sampleAt (p : Sampling) (d : CfgData) (Q : List Sym) (n : Nat) : Sample :=
  conv d.outputFormat (sampleFn p d.amplitude (phaseAt d Q n))

/-- ENCODE(text, cfg) of a block with the table `rom` and the sample parameters p (43_encoder.md R123). -/
def encodeText (rom : CodeTable) (p : Sampling) (d : CfgData) (text : List Char21) : EncodeResult :=
  if cfgValid ⟨true, d⟩ then
    let f := frameText rom d text
    match f.stopped with
    | some (i, c) => .unsupportedCharacter i c
    | none => .ok ((List.range (messageSamples d f.symbols.length)).map (sampleAt p d f.symbols)) f.warnings
  else .invalidConfig

/-- No capacity is exceeded by the message: the premise "Suppose no fault is raised" of 43_encoder.md R123, as a
condition on the text (60_exceptions.md R131). -/
def encodeFits (s : State) (d : CfgData) (text : List Char21) : Bool :=
  !cfgValid ⟨true, d⟩ ||
    (let f := frameText s.rom d text
     !exceeds f.symbols.length s.maxSymbols &&
       (f.stopped.isSome || !exceeds (messageSamples d f.symbols.length) s.maxSamples))

/-- The command word of an instruction; a code symbol has none (30_encoding.md R46). -/
def wordOf (i : Instr) : Option Word :=
  match encode i with
  | .word w => some w
  | .symbol _ => none

/-- A host move that issues a command, with a value on the configuration bus. -/
def issue (i : Instr) (bus : CfgData) : List Event := (wordOf i).toList.map fun w => .command w bus

/-- `SEND "text"`: BEGIN, then PUSH c for each character in order, then END (30_encoding.md R53). -/
def sendEvents (text : List Char21) (bus : CfgData) : List Event :=
  issue .beginMsg bus ++ text.flatMap (fun c => issue (.push c) bus) ++ issue .endMsg bus

/-- `CFG cfg; SEND text; WAIT` (43_encoder.md R123). -/
def callEvents (d : CfgData) (text : List Char21) : List Event := issue .cfg d ++ sendEvents text d ++ [.wait]

end Sys2Proof.Machine
end

