-- ==== Sys2Proof/Machine/Asm.lean ====
section
/-! DEFINITION. The textual syntax of command sequences (30_encoding.md R52) and its pseudo-commands (R53): a line of
text to a line of syntax, and a line of syntax to the host moves it stands for. Text is a list of characters. -/

namespace Sys2Proof.Machine

/-- One line of a command sequence (30_encoding.md R52, R53). -/
inductive AsmLine where
  | nop
  | cfg (d : CfgData)
  | beginMsg
  | push (c : Char21)
  | endMsg
  | send (text : List Char21)
  | wait
  deriving DecidableEq, Repr

/-- The host moves of a line, with `bus` on the configuration bus where the line does not set it. WAIT issues no
command: the host polls until PHASE = DONE (30_encoding.md R53). -/
def AsmLine.events (bus : CfgData) : AsmLine → List Event
  | .nop => issue .nop bus
  | .cfg d => issue .cfg d
  | .beginMsg => issue .beginMsg bus
  | .push c => issue (.push c) bus
  | .endMsg => issue .endMsg bus
  | .send text => sendEvents text bus
  | .wait => [.wait]

/-- The host moves of a sequence of lines. -/
def assemble (bus : CfgData) (lines : List AsmLine) : List Event := lines.flatMap (AsmLine.events bus)

/-- A character's code point (10_state.md R28). -/
def charOf (c : Char) : Char21 := BitVec.ofNat 21 c.toNat

/-- A decimal digit's value. -/
def digitOf (c : Char) : Option Nat := if '0' ≤ c ∧ c ≤ '9' then some (c.toNat - 48) else none

/-- A hexadecimal digit's value. -/
def hexDigitOf (c : Char) : Option Nat :=
  if '0' ≤ c ∧ c ≤ '9' then some (c.toNat - 48)
  else if 'A' ≤ c ∧ c ≤ 'F' then some (c.toNat - 55)
  else if 'a' ≤ c ∧ c ≤ 'f' then some (c.toNat - 87)
  else none

/-- A number in a base, from its digits; a number has at least one. -/
def numberIn (base : Nat) (digit : Char → Option Nat) : List Char → Option Nat
  | [] => none
  | c :: cs => (c :: cs).foldl (fun acc c => acc.bind fun n => (digit c).map fun k => n * base + k) (some 0)

/-- Split a text at the first occurrence of a character, which is dropped. -/
def splitAtChar (x : Char) : List Char → List Char × Option (List Char)
  | [] => ([], none)
  | c :: cs =>
    if c = x then ([], some cs)
    else
      let r := splitAtChar x cs
      (c :: r.1, r.2)

/-- An unsigned `<rat>`: a whole number, a decimal or a fraction, the exact rational it denotes (30_encoding.md R52). -/
def parseUnsignedRat (cs : List Char) : Option Rat :=
  match splitAtChar '/' cs with
  | (a, some b) =>
    match numberIn 10 digitOf a, numberIn 10 digitOf b with
    | some n, some d => if d = 0 then none else some ((n : Rat) / (d : Rat))
    | _, _ => none
  | (_, none) =>
    match splitAtChar '.' cs with
    | (a, some b) =>
      match numberIn 10 digitOf a, numberIn 10 digitOf b with
      | some n, some f => some ((n : Rat) + (f : Rat) / ((10 ^ b.length : Nat) : Rat))
      | _, _ => none
    | (a, none) => (numberIn 10 digitOf a).map fun n => (n : Rat)

/-- A `<rat>`; a leading minus sign is read, since CFG takes any value (10_state.md R16; assumption log 11). -/
def parseRat : List Char → Option Rat
  | '-' :: cs => (parseUnsignedRat cs).map fun q => -q
  | cs => parseUnsignedRat cs

/-- The blank-separated words of a text; `word` is the word being read. -/
def wordsOf : List Char → List Char → List (List Char)
  | [], [] => []
  | word, [] => [word]
  | word, c :: cs =>
    if c = ' ' then (if word = [] then wordsOf [] cs else word :: wordsOf [] cs)
    else wordsOf (word ++ [c]) cs

/-- The part of a line before its comment, which a semicolon opens (30_encoding.md R52). -/
def beforeComment (cs : List Char) : List Char := (splitAtChar ';' cs).1

/-- Nothing but blanks and a comment. -/
def isBlank (cs : List Char) : Bool := (beforeComment cs).all (· = ' ')

/-- The value of a `key=value` word with the given key. -/
def valueFor (key : List Char) (w : List Char) : Option (List Char) :=
  match splitAtChar '=' w with
  | (k, some v) => if k = key then some v else none
  | (_, none) => none

/-- `skip=<0|1>`. -/
def parseBit : List Char → Option Bool
  | ['0'] => some false
  | ['1'] => some true
  | _ => none

/-- `fmt=<FLOAT|INT16>`. -/
def parseFormat (v : List Char) : Option OutputFormat :=
  if v = ['F', 'L', 'O', 'A', 'T'] then some .float
  else if v = ['I', 'N', 'T', '1', '6'] then some .int16
  else none

/-- The eight `key=value` words of a CFG line, in the order of 30_encoding.md R52. -/
def parseCfg : List (List Char) → Option CfgData
  | [b, r, m, s, t, a, k, f] => do
    let baud ← (valueFor ['b', 'a', 'u', 'd'] b).bind parseRat
    let rate ← (valueFor ['r', 'a', 't', 'e'] r).bind parseRat
    let mark ← (valueFor ['m', 'a', 'r', 'k'] m).bind parseRat
    let space ← (valueFor ['s', 'p', 'a', 'c', 'e'] s).bind parseRat
    let stop ← (valueFor ['s', 't', 'o', 'p'] t).bind parseRat
    let amp ← (valueFor ['a', 'm', 'p'] a).bind parseRat
    let skip ← (valueFor ['s', 'k', 'i', 'p'] k).bind parseBit
    let fmt ← (valueFor ['f', 'm', 't'] f).bind parseFormat
    pure ⟨baud, rate, mark, space, stop, amp, skip, fmt⟩
  | _ => none

/-- PUSH's operand: `'c'` for a printable ASCII character, or `U+XXXX` for any 21-bit value (30_encoding.md R52). -/
def parsePush : List Char → Option Char21
  | ' ' :: cs => parsePush cs
  | '\'' :: c :: '\'' :: rest =>
    if 0x20 ≤ c.toNat ∧ c.toNat ≤ 0x7E ∧ isBlank rest then some (charOf c) else none
  | 'U' :: '+' :: rest =>
    match wordsOf [] (beforeComment rest) with
    | [h] => (numberIn 16 hexDigitOf h).bind fun n => if n < 2 ^ 21 then some (BitVec.ofNat 21 n) else none
    | _ => none
  | _ => none

/-- SEND's operand: the characters between two double quotes (30_encoding.md R53). -/
def parseSend : List Char → Option (List Char21)
  | ' ' :: cs => parseSend cs
  | '"' :: cs =>
    match splitAtChar '"' cs with
    | (text, some rest) => if isBlank rest then some (text.map charOf) else none
    | (_, none) => none
  | _ => none

/-- The line a text stands for (30_encoding.md R52, R53): a command name, then its operand. -/
def parseLine : List Char → Option AsmLine
  | ' ' :: cs => parseLine cs
  | 'P' :: 'U' :: 'S' :: 'H' :: ' ' :: cs => (parsePush cs).map .push
  | 'S' :: 'E' :: 'N' :: 'D' :: ' ' :: cs => (parseSend cs).map .send
  | cs =>
    match wordsOf [] (beforeComment cs) with
    | ['C', 'F', 'G'] :: ws => (parseCfg ws).map .cfg
    | [['N', 'O', 'P']] => some .nop
    | [['B', 'E', 'G', 'I', 'N']] => some .beginMsg
    | [['E', 'N', 'D']] => some .endMsg
    | [['W', 'A', 'I', 'T']] => some .wait
    | _ => none

end Sys2Proof.Machine
end

