-- ==== Sys2Proof/Machine/Instances.lean ====
section
/-! DEFINITION. Several instances of the block (60_exceptions.md R138): each has its own state, and no instance reads
another's. A shared ROM is the same table in each, since nothing writes it (20_memory.md R35). Instances have no
identifiers; a position in the list stands for which one moves
(assumption log 17). -/

namespace Sys2Proof.Machine

/-- One step of the instance at position i; the others stay as they are. No instance there: nothing moves. -/
def stepInstance (i : Nat) (blocks : List State) : Host.Outcome (List State) Fault Refusal :=
  match blocks[i]? with
  | none => .next blocks
  | some s =>
    match step s with
    | .next t => .next (blocks.set i t)
    | .fault r => .fault r
    | .refused r => .refused r

end Sys2Proof.Machine
end

