-- ==== Sys2Proof/Machine/Ports.lean ====
section
/-! DEFINITION. The read ports (10_state.md R19) and the CodeTable self-test port (40_codetable.md R92). A read "is not a
step and changes nothing" (00_scope.md R11): each is a function of the state to a value. -/

namespace Sys2Proof.Machine

/-- The read ports of 10_state.md R19; `lookup` and `reverse` are the self-test port's two functions. -/
inductive ReadPort where
  | status
  | err
  | errIndex
  | errChar
  | charIdx
  | nTotal
  | nSamp
  | warnCount
  | warn (i : Nat)
  | symqLen
  | symq (i : Nat)
  | sampleCount
  | outbuf (i : Nat)
  | cfgValid
  | cfgBaudRate
  | cfgSampleRate
  | cfgMarkFrequency
  | cfgSpaceFrequency
  | cfgStopBitMultiplier
  | cfgAmplitude
  | cfgSkipUnknownChars
  | cfgOutputFormat
  | lookup (c : Char21)
  | reverse (code : Sym) (s : ReqShift)
  deriving DecidableEq, Repr

/-- What a port carries: "Each port carries a whole value" (20_memory.md R37). -/
inductive PortValue where
  | word (w : Word)
  | code2 (b : BitVec 2)
  | nat (n : Nat)
  | rat (q : Rat)
  | bit (b : Bool)
  | format (f : OutputFormat)
  | char (c : Char21)
  | warnRecord (r : WarnRecord)
  | symbol (v : Sym)
  | sample (x : Sample)
  | lookup (r : Option (Sym × ReqShift))
  | reverse (r : Option Char21)
  deriving DecidableEq, Repr

/-- An entry of a sequence, or the host error of a read at or past its length (10_state.md R19). -/
def readEntry {α : Type} (wrap : α → PortValue) (l : List α) (i : Nat) : Except Fault PortValue :=
  match l[i]? with
  | some x => .ok (wrap x)
  | none => .error .readPastEnd

/-- The value a read port returns between two steps (10_state.md R19; 20_memory.md R40; assumption log 13). -/
def readPort (s : State) : ReadPort → Except Fault PortValue
  | .status => .ok (.word s.status)
  | .err => .ok (.code2 (ErrCode.code s.err))
  | .errIndex => .ok (.nat s.errIndex)
  | .errChar => .ok (.char s.errChar)
  | .charIdx => .ok (.nat s.charIdx)
  | .nTotal => .ok (.nat s.nTotal)
  | .nSamp => .ok (.nat s.nSamp)
  | .warnCount => .ok (.nat s.warn.length)
  | .warn i => readEntry .warnRecord s.warn i
  | .symqLen => .ok (.nat s.symq.length)
  | .symq i => readEntry .symbol s.symq i
  | .sampleCount => .ok (.nat s.outbuf.length)
  | .outbuf i => readEntry .sample s.outbuf i
  | .cfgValid => .ok (.bit s.cfg.valid)
  | .cfgBaudRate => .ok (.rat s.cfg.data.baudRate)
  | .cfgSampleRate => .ok (.rat s.cfg.data.sampleRate)
  | .cfgMarkFrequency => .ok (.rat s.cfg.data.markFrequency)
  | .cfgSpaceFrequency => .ok (.rat s.cfg.data.spaceFrequency)
  | .cfgStopBitMultiplier => .ok (.rat s.cfg.data.stopBitMultiplier)
  | .cfgAmplitude => .ok (.rat s.cfg.data.amplitude)
  | .cfgSkipUnknownChars => .ok (.bit s.cfg.data.skipUnknownChars)
  | .cfgOutputFormat => .ok (.format s.cfg.data.outputFormat)
  | .lookup c => .ok (.lookup (symbolFor s.rom c))
  | .reverse code r => .ok (.reverse (characterFor s.rom code r))

end Sys2Proof.Machine
end

