-- ==== Sys2Proof/Safety.lean ====
section
/-! DEFINITION. What a claim speaks of: failed runs, the command-word moves, and the invariant of the machine. Every
clause of the invariant cites the rule that says it. -/

namespace Sys2Proof.Machine

/-- "A run in which either bit is 1 is a failed run for every claim" (10_state.md R24; assumption log 16). -/
def State.failed (s : State) : Bool := s.cmdErr || s.capErr

/-- The move a step takes is the reset input. -/
def State.resetNext (s : State) : Prop := ∃ d rest, s.schedule = .reset d :: rest

/-- The command the next step takes from the command port, if its word is no illegal one (30_encoding.md R46). -/
def State.nextCommand (s : State) : Option Instr :=
  match s.schedule with
  | .command w _ :: _ => (decode (.word w)).toOption
  | _ => none

/-- The phases that allow a command: the table of 43_encoder.md R115, read on its own (the meanings have theirs). A
code symbol is no command. -/
def allowedIn (i : Instr) (p : Phase) : Bool :=
  match i with
  | .nop => true
  | .cfg => p == .idle || p == .done
  | .beginMsg => p == .idle || p == .done
  | .push _ => p == .accept
  | .endMsg => p == .accept
  | _ => false

/-- The next move is an illegal word: one that encodes no command, or a command in a phase that does not allow it
(30_encoding.md R48; 60_exceptions.md R130). -/
def State.illegalNext (s : State) : Prop :=
  ∃ w bus rest, s.schedule = .command w bus :: rest ∧
    ∀ i, decode (.word w) = .ok i → allowedIn i s.phase = false

/-- The next move is the block's turn, and s' is the state in which it is taken: nothing is scheduled; or a turn of the
block is, and is taken from the schedule; or the host waits, and its wait is taken from the schedule when PHASE = DONE
(30_encoding.md R53). -/
def State.blockNext (s s' : State) : Prop :=
  (s.schedule = [] ∧ s' = s) ∨
  (∃ rest, s.schedule = .synth :: rest ∧ s' = { s with schedule := rest }) ∨
  (∃ rest, s.schedule = .wait :: rest ∧ s' = if s.phase = .done then { s with schedule := rest } else s)

/-- Room for more symbols: the queue with k more is within MAX_SYMBOLS (60_exceptions.md R131). -/
def State.roomFor (s : State) (k : Nat) : Prop := ∀ m, s.maxSymbols = some m → s.symq.length + k ≤ m

/-- One row of the table for a letter and a figure (40_codetable.md R59 and the other 25 rules of its kind), read
against the US-TTY table: the two ROM entries, the five bits in line order, the lookup of the letter, of its lowercase form and
of the figure, and what a PUSH of each does while the message is open and good. -/
def LetterRow (code : Sym) (bits : List Bool) (letter figure : Char21) : Prop :=
  CodeTable.memRead usTty (BitVec.ofNat 6 code.toNat) = ⟨true, letter⟩ ∧
  CodeTable.memRead usTty (BitVec.ofNat 6 (32 + code.toNat)) = ⟨true, figure⟩ ∧
  (List.range 5).map code.getLsbD = bits ∧
  (∀ c ∈ [letter, letter + 0x20], symbolFor usTty c = some (code, .letters)) ∧
  symbolFor usTty figure = some (code, .figures) ∧
  ∀ s : State, s.rom = usTty → s.phase = .accept → s.err = .none → s.roomFor 2 →
    (∀ c ∈ [letter, letter + 0x20], exec (.push c) s = .next
      { s with
        charIdx := s.charIdx + 1
        symq := s.symq ++ (if s.ss = .figures then [0x1F#5, code] else [code])
        ss := .letters }) ∧
    exec (.push figure) s = .next
      { s with
        charIdx := s.charIdx + 1
        symq := s.symq ++ (if s.ss = .letters then [0x1B#5, code] else [code])
        ss := .figures }

/-- One row of the table for a control character (40_codetable.md R58, R60, R62, R66), read against the US-TTY table: both
ROM entries, the bits in line order, the tag, the lookup, and what a PUSH does while the message is open and good. -/
def ControlRow (code : Sym) (bits : List Bool) (char : Char21) : Prop :=
  CodeTable.memRead usTty (BitVec.ofNat 6 code.toNat) = ⟨true, char⟩ ∧
  CodeTable.memRead usTty (BitVec.ofNat 6 (32 + code.toNat)) = ⟨true, char⟩ ∧
  (List.range 5).map code.getLsbD = bits ∧
  (∀ half, symbolTag code half = .neutral) ∧
  symbolFor usTty char = some (code, .neutral) ∧
  ∀ s : State, s.rom = usTty → s.phase = .accept → s.err = .none → s.roomFor 1 →
    exec (.push char) s = .next { s with charIdx := s.charIdx + 1, symq := s.symq ++ [code] }

/-- One row of the table for a shift-control symbol (40_codetable.md R85, R89), read against the US-TTY table: no entry in
either half, the bits in line order, the tag, no character maps to it; and only a PUSH emits it, which sets SS to
`half`. -/
def ShiftRow (code : Sym) (bits : List Bool) (half : ShiftState) : Prop :=
  (CodeTable.memRead usTty (BitVec.ofNat 6 code.toNat)).present = false ∧
  (CodeTable.memRead usTty (BitVec.ofNat 6 (32 + code.toNat))).present = false ∧
  (List.range 5).map code.getLsbD = bits ∧
  (∀ h, symbolTag code h = .shift) ∧
  (∀ c req, symbolFor usTty c ≠ some (code, req)) ∧
  ∀ s t : State, s.rom = usTty → step s = .next t → code ∈ t.symq.drop s.symq.length →
    (∃ c, s.nextCommand = some (.push c)) ∧ t.ss = half

/-- The shift of the last shift symbol in a queue, or LETTERS if there is none (41_framer.md R96). -/
def lastShift : List Sym → ShiftState
  | [] => .letters
  | v :: q =>
    if figs ∈ q ∨ ltrs ∈ q then lastShift q
    else if v = figs then .figures
    else .letters

/-- The number of samples before n whose element has tone t: cm(n) and cs(n) of 42_synthesizer.md R113. -/
def toneCount (d : CfgData) (Q : List Sym) (t : Tone) (n : Nat) : Nat :=
  (List.range n).countP fun m => toneAt d Q m = some t

/-- The closed form of the phase of sample n (42_synthesizer.md R113). -/
def closedPhase (d : CfgData) (Q : List Sym) (n : Nat) : Rat :=
  frac (((toneCount d Q .mark n : Rat) * d.markFrequency + (toneCount d Q .space n : Rat) * d.spaceFrequency)
    / d.sampleRate)

/-- The invariant of the machine. -/
structure State.Inv (s : State) : Prop where
  /-- The ROM is a legal CODE_TABLE (40_codetable.md R57). -/
  rom_legal : CodeTable.wf s.rom = true
  /-- "RESULT ≠ NONE exactly when PHASE = DONE" (10_state.md R23). -/
  result_iff_done : s.result ≠ .none ↔ s.phase = .done
  /-- THETA is "an exact rational in [0, 1)" (10_state.md R29). -/
  theta_range : 0 ≤ s.theta ∧ s.theta < 1
  /-- "0 ≤ NSAMP ≤ NTOTAL" (10_state.md R29). -/
  nSamp_le : s.nSamp ≤ s.nTotal
  /-- "Each SYNTH step appends exactly one sample and updates NSAMP" (20_memory.md R40). -/
  outbuf_length : s.outbuf.length = s.nSamp
  /-- "SYMQ holds at most MAX_SYMBOLS entries" (10_state.md R26). -/
  symq_capacity : exceeds s.symq.length s.maxSymbols = false
  /-- "OUTBUF holds at most MAX_SAMPLES entries" (10_state.md R30), and NTOTAL was checked at END (43_encoder.md R122). -/
  samples_capacity : exceeds s.nTotal s.maxSamples = false
  /-- ERR_INDEX and ERR_CHAR are the unsupported character's, and "stay 0" otherwise (10_state.md R22). -/
  err_info : s.err ≠ .unsupportedCharacter → s.errIndex = 0 ∧ s.errChar = 0
  /-- The offending character was counted (10_state.md R25). -/
  err_index_counted : s.err = .unsupportedCharacter → s.errIndex < s.charIdx
  /-- WARN's indexes are of characters taken, "in input order" (10_state.md R27). -/
  warn_order : (s.warn.map WarnRecord.index).Pairwise (· < ·) ∧ ∀ r ∈ s.warn, r.index < s.charIdx
  /-- In IDLE no message has begun since reset (10_state.md R20). -/
  idle_clear : s.phase = .idle → s.err = .none ∧ s.charIdx = 0 ∧ s.symq = [] ∧ s.warn = [] ∧ s.nTotal = 0 ∧
    s.theta = 0 ∧ s.ss = .letters
  /-- No sample is made before END (43_encoder.md R119, R121). -/
  accept_clear : s.phase = .accept → s.nTotal = 0 ∧ s.theta = 0
  /-- "By the time a message reaches SYNTH it has passed every check" (42_synthesizer.md R108). -/
  synth_ok : s.phase = .synth → s.err = .none ∧ s.nTotal = messageSamples s.cfg.data s.symq.length
  /-- The configuration BEGIN checked is the one of the whole message (20_memory.md R44): the latch says so. -/
  cfg_checked : s.phase = .accept ∨ s.phase = .synth → (s.err = .invalidConfig ↔ cfgValid s.cfg = false)
  /-- A finished message: RESULT takes ERR, SYMQ is emptied and nothing was made (60_exceptions.md R133); or OK with
  all NTOTAL samples (20_memory.md R43). -/
  done_result : s.phase = .done → (s.err ≠ .none → s.result = s.err.toResult ∧ s.symq = [] ∧ s.nTotal = 0 ∧
    s.theta = 0) ∧ (s.err = .none → s.result = .ok ∧ s.nSamp = s.nTotal)
  /-- "SS always equals the shift of the last shift symbol in SYMQ, or LETTERS if there is none" (41_framer.md R96),
  while SYMQ has not been discarded. -/
  ss_last : s.phase ≠ .done ∨ s.err = .none → s.ss = lastShift s.symq
  /-- An invalid configuration is latched "before touching the text": nothing is framed or warned of
  (60_exceptions.md R127, R132). -/
  invalid_clear : s.err = .invalidConfig → s.symq = [] ∧ s.warn = [] ∧ s.ss = .letters
  /-- The samples of the message being made are the ones of ENCODE's loop (43_encoder.md R123). -/
  synth_samples : s.phase = .synth → s.theta = phaseAt s.cfg.data s.symq s.nSamp ∧
    s.outbuf = (List.range s.nSamp).map (sampleAt s.sampling s.cfg.data s.symq)

end Sys2Proof.Machine
end

