-- ==== Sys2Proof/Certificates/Slice0/Obligations.lean ====
section
/-! DEFINITION. The statements for the provers. Each docstring names the rule it formalises, or says that it rests on the
model's own choice. `exec` is the meaning of an instruction, `step` one move of the host or the block. -/

open Sys2Proof Sys2Proof.Machine

/-! ### Encodings and fetch -/

/-- Decode and encode agree, both ways: decoding the encoding of an instruction, with any operand, gives it back, so no bit
of an encoding is dropped; and what the decoder accepts is the encoding of what it answers, so every word and every symbol has
one meaning (30_encoding.md R45 to R47, R50). -/
def Obligations.DecodeEncodeInverse : Prop :=
  (∀ i : Instr, decode (encode i) = .ok i) ∧ (∀ (u : Code) (i : Instr), decode u = .ok i → encode i = u)

/-- The opcode map by match and mask, for every word (30_encoding.md R46). -/
def Obligations.OpcodeMapMatchMask : Prop :=
  ∀ w : Word,
    (decode (.word w) = .ok .nop ↔ w &&& 0xFFFFFFFF#32 = 0x00000000#32) ∧
    (decode (.word w) = .ok .cfg ↔ w &&& 0xFFFFFFFF#32 = 0x01000000#32) ∧
    (decode (.word w) = .ok .beginMsg ↔ w &&& 0xFFFFFFFF#32 = 0x02000000#32) ∧
    ((∃ c, decode (.word w) = .ok (.push c)) ↔ w &&& 0xFFE00000#32 = 0x03000000#32) ∧
    (decode (.word w) = .ok .endMsg ↔ w &&& 0xFFFFFFFF#32 = 0x04000000#32) ∧
    (∀ i, decode (.word w) = .ok i → ∀ v, encode i ≠ .symbol v)

/-- Which words are illegal in every phase: exactly the cases (a), (b), (c) of 30_encoding.md R48, on the word's number. -/
def Obligations.IllegalWordsExactly : Prop :=
  ∀ w : Word,
    let op := w.toNat / 2 ^ 24
    let rsv := w.toNat / 2 ^ 21 % 2 ^ 3
    let low := w.toNat % 2 ^ 24
    (∀ i, decode (.word w) ≠ .ok i) ↔
      0x05 ≤ op ∨ (op = 0x03 ∧ rsv ≠ 0) ∨ ((op = 0x00 ∨ op = 0x01 ∨ op = 0x02 ∨ op = 0x04) ∧ low ≠ 0)

/-- Operands: PUSH's character is word[20:0]; CFG's is the whole configuration bus of the step that takes the word
(30_encoding.md R47). -/
def Obligations.OperandAssembly : Prop :=
  (∀ (w : Word) (c : Char21), decode (.word w) = .ok (.push c) → c.toNat = w.toNat % 2 ^ 21) ∧
  (∀ (s : State) (d : CfgData) (rest : List Event), CodeTable.wf s.rom = true →
    s.phase = .idle ∨ s.phase = .done → s.schedule = .command 0x01000000#32 d :: rest →
    ∃ t, step s = .next t ∧ t.cfg.valid = true ∧ t.cfg.data = d)

/-- A few words and symbols written out from the spec's encodings decode to what they stand for (30_encoding.md R46;
95_test_vectors.md 2.1; 40_codetable.md R61, R85). -/
def Obligations.SampleWordsDecode : Prop :=
  decode (.word 0x00000000#32) = .ok .nop ∧ decode (.word 0x01000000#32) = .ok .cfg ∧
  decode (.word 0x02000000#32) = .ok .beginMsg ∧ decode (.word 0x03000041#32) = .ok (.push 0x41#21) ∧
  decode (.word 0x04000000#32) = .ok .endMsg ∧ decode (.symbol 0b00011#5) = .ok .ita2ADash ∧
  decode (.symbol 0b11011#5) = .ok .ita2Figs ∧ decode (.word 0x03200041#32) = .error .reservedBits

/-- A step runs the decoded instruction: a command word at the head of the schedule, taken from it with its bus value; and,
in the block's turn, the code symbol of the frame being sent (00_scope.md R11; 43_encoder.md R115, R122). The schedule is
the model's own (assumption log 2). -/
def Obligations.StepRunsDecoded : Prop :=
  (∀ (s : State) (w : Word) (d : CfgData) (rest : List Event) (i : Instr), CodeTable.wf s.rom = true →
    s.schedule = .command w d :: rest → decode (.word w) = .ok i →
    step s = exec i { s with schedule := rest, bus := d }) ∧
  (∀ (s s' : State) (v : Sym) (i : Instr), CodeTable.wf s.rom = true → s.blockNext s' → s.phase = .synth →
    s.nSamp ≠ s.nTotal → s.onLine = some v → decode (.symbol v) = .ok i → step s = exec i s')

/-- A ROM that breaks one of W1 to W4 is refused, a legal one never (40_codetable.md R57): W1 to W4 spelled out, the US-TTY
table among the legal ones. -/
def Obligations.CodeTableChecks : Prop :=
  (∀ t : CodeTable, CodeTable.wf t = true ↔
    (∀ h a b, (CodeTable.entry t h a).present = true → (CodeTable.entry t h b).present = true →
      (CodeTable.entry t h a).char = (CodeTable.entry t h b).char → a = b) ∧
    (∀ a b, (CodeTable.entry t .letters a).present = true → (CodeTable.entry t .figures b).present = true →
      (CodeTable.entry t .letters a).char = (CodeTable.entry t .figures b).char →
      a = b ∧ (a = 0x00#5 ∨ a = 0x02#5 ∨ a = 0x04#5 ∨ a = 0x08#5)) ∧
    (∀ h, (CodeTable.entry t h 0x1B#5).present = false ∧ (CodeTable.entry t h 0x1F#5).present = false) ∧
    (∀ h a, (CodeTable.entry t h a).present = true →
      ¬(0x61 ≤ (CodeTable.entry t h a).char.toNat ∧ (CodeTable.entry t h a).char.toNat ≤ 0x7A))) ∧
  CodeTable.wf usTty = true ∧
  (∀ s : State, step s = .refused .illegalCodeTable ↔ CodeTable.wf s.rom = false)

/-! ### The CodeTable -/

/-- The rows of the code table of R59, R61, R63, R64, R65, R67, R68, R69, R70 (40_codetable.md): code, bits, both characters, what their lookup and
their PUSH give. The table values are the spec's general knowledge (93_implementation_defined.md G1, G2). -/
def Obligations.CodeTableRowsFromE : Prop :=
  LetterRow 0x01#5 [true, false, false, false, false] 0x45#21 0x33#21 ∧
  LetterRow 0x03#5 [true, true, false, false, false] 0x41#21 0x2D#21 ∧
  LetterRow 0x05#5 [true, false, true, false, false] 0x53#21 0x07#21 ∧
  LetterRow 0x06#5 [false, true, true, false, false] 0x49#21 0x38#21 ∧
  LetterRow 0x07#5 [true, true, true, false, false] 0x55#21 0x37#21 ∧
  LetterRow 0x09#5 [true, false, false, true, false] 0x44#21 0x24#21 ∧
  LetterRow 0x0A#5 [false, true, false, true, false] 0x52#21 0x34#21 ∧
  LetterRow 0x0B#5 [true, true, false, true, false] 0x4A#21 0x27#21 ∧
  LetterRow 0x0C#5 [false, false, true, true, false] 0x4E#21 0x2C#21

/-- The rows of the code table of R71, R72, R73, R74, R75, R76, R77, R78, R79 (40_codetable.md): code, bits, both characters, what their lookup and
their PUSH give. The table values are the spec's general knowledge (93_implementation_defined.md G1, G2). -/
def Obligations.CodeTableRowsFromF : Prop :=
  LetterRow 0x0D#5 [true, false, true, true, false] 0x46#21 0x21#21 ∧
  LetterRow 0x0E#5 [false, true, true, true, false] 0x43#21 0x3A#21 ∧
  LetterRow 0x0F#5 [true, true, true, true, false] 0x4B#21 0x28#21 ∧
  LetterRow 0x10#5 [false, false, false, false, true] 0x54#21 0x35#21 ∧
  LetterRow 0x11#5 [true, false, false, false, true] 0x5A#21 0x22#21 ∧
  LetterRow 0x12#5 [false, true, false, false, true] 0x4C#21 0x29#21 ∧
  LetterRow 0x13#5 [true, true, false, false, true] 0x57#21 0x32#21 ∧
  LetterRow 0x14#5 [false, false, true, false, true] 0x48#21 0x23#21 ∧
  LetterRow 0x15#5 [true, false, true, false, true] 0x59#21 0x36#21

/-- The rows of the code table of R80, R81, R82, R83, R84, R86, R87, R88 (40_codetable.md): code, bits, both characters, what their lookup and
their PUSH give. The table values are the spec's general knowledge (93_implementation_defined.md G1, G2). -/
def Obligations.CodeTableRowsFromP : Prop :=
  LetterRow 0x16#5 [false, true, true, false, true] 0x50#21 0x30#21 ∧
  LetterRow 0x17#5 [true, true, true, false, true] 0x51#21 0x31#21 ∧
  LetterRow 0x18#5 [false, false, false, true, true] 0x4F#21 0x39#21 ∧
  LetterRow 0x19#5 [true, false, false, true, true] 0x42#21 0x3F#21 ∧
  LetterRow 0x1A#5 [false, true, false, true, true] 0x47#21 0x26#21 ∧
  LetterRow 0x1C#5 [false, false, true, true, true] 0x4D#21 0x2E#21 ∧
  LetterRow 0x1D#5 [true, false, true, true, true] 0x58#21 0x2F#21 ∧
  LetterRow 0x1E#5 [false, true, true, true, true] 0x56#21 0x3B#21

/-- The control characters, R58, R60, R62, R66 (40_codetable.md): the same entry in both halves, NEUTRAL, and a PUSH never
triggers a shift change. -/
def Obligations.ControlCharacterRows : Prop :=
  ControlRow 0x00#5 [false, false, false, false, false] 0x00#21 ∧
  ControlRow 0x02#5 [false, true, false, false, false] 0x0A#21 ∧
  ControlRow 0x04#5 [false, false, true, false, false] 0x20#21 ∧
  ControlRow 0x08#5 [false, false, false, true, false] 0x0D#21

/-- The shift-control symbols FIGS and LTRS, R85 and R89 (40_codetable.md). -/
def Obligations.ShiftSymbolRows : Prop :=
  ShiftRow 0x1B#5 [true, true, false, true, true] .figures ∧
  ShiftRow 0x1F#5 [true, true, true, true, true] .letters

/-- Case folding: exactly the 26 ASCII lowercase letters, and what is recorded is the character as received
(40_codetable.md R56). -/
def Obligations.FoldingIsForLookupOnly : Prop :=
  (∀ c : Char21, (0x61 ≤ c.toNat ∧ c.toNat ≤ 0x7A → (fold c).toNat = c.toNat - 0x20) ∧
    (¬(0x61 ≤ c.toNat ∧ c.toNat ≤ 0x7A) → fold c = c)) ∧
  (∀ (rom : CodeTable) (c : Char21), symbolFor rom c = symbolFor rom (fold c)) ∧
  (∀ (s : State) (c : Char21), s.phase = .accept → s.err = .none → symbolFor s.rom c = none →
    ∃ t, exec (.push c) s = .next t ∧
      (s.cfg.data.skipUnknownChars = false → t.errChar = c) ∧
      (s.cfg.data.skipUnknownChars = true → ∃ r, t.warn = s.warn ++ [r] ∧ r.char = c))

/-- `symbolFor` on every legal table, by the entries it reads (40_codetable.md R90, R57). That a character that is no scalar
value is unsupported even where the table holds it is R90's corner case (10_state.md R28; 30_encoding.md R49) taken over
R90's pseudocode: the model's choice (assumption log 18). -/
def Obligations.ForwardLookup : Prop :=
  ∀ (rom : CodeTable) (c : Char21), CodeTable.wf rom = true →
    let inHalf := fun (h : ShiftState) (k : Sym) =>
      (CodeTable.entry rom h k).present = true ∧ (CodeTable.entry rom h k).char = fold c
    let scalar := c.toNat < 0xD800 ∨ (0xE000 ≤ c.toNat ∧ c.toNat < 0x110000)
    (∀ k, symbolFor rom c = some (k, .neutral) ↔ scalar ∧ inHalf .letters k ∧ inHalf .figures k) ∧
    (∀ k, symbolFor rom c = some (k, .letters) ↔ scalar ∧ inHalf .letters k ∧ ¬inHalf .figures k) ∧
    (∀ k, symbolFor rom c = some (k, .figures) ↔ scalar ∧ inHalf .figures k ∧ ¬inHalf .letters k) ∧
    (symbolFor rom c = none ↔ ¬scalar ∨ ∀ h k, ¬inHalf h k)

/-- `characterFor`: the entry of the half asked for, NEUTRAL reading the LETTERS half; no shift code has a character
(40_codetable.md R91). -/
def Obligations.InverseLookup : Prop :=
  (∀ (rom : CodeTable) (k : Sym),
    characterFor rom k .letters =
      (if (CodeTable.memRead rom (BitVec.ofNat 6 k.toNat)).present
        then some (CodeTable.memRead rom (BitVec.ofNat 6 k.toNat)).char else none) ∧
    characterFor rom k .figures =
      (if (CodeTable.memRead rom (BitVec.ofNat 6 (32 + k.toNat))).present
        then some (CodeTable.memRead rom (BitVec.ofNat 6 (32 + k.toNat))).char else none) ∧
    characterFor rom k .neutral = characterFor rom k .letters) ∧
  (∀ (rom : CodeTable) (s : ReqShift), CodeTable.wf rom = true →
    characterFor rom 0x1B#5 s = none ∧ characterFor rom 0x1F#5 s = none)

/-- Round trip on every legal table (40_codetable.md R94, which the spec derives). -/
def Obligations.LookupRoundTrip : Prop :=
  ∀ (rom : CodeTable) (c : Char21) (k : Sym) (req : ReqShift), CodeTable.wf rom = true →
    symbolFor rom c = some (k, req) → characterFor rom k req = some (fold c)

/-- The supported set of the US-TTY table: these 56 characters after folding and no other, each with the shift it
requires (40_codetable.md R93, which the spec derives; R55). -/
def Obligations.SupportedSet : Prop :=
  ∀ c : Char21,
    ((∃ k, symbolFor usTty c = some (k, .letters)) ↔ 0x41 ≤ (fold c).toNat ∧ (fold c).toNat ≤ 0x5A) ∧
    ((∃ k, symbolFor usTty c = some (k, .figures)) ↔
      c.toNat ∈ [0x30, 0x31, 0x32, 0x33, 0x34, 0x35, 0x36, 0x37, 0x38, 0x39, 0x2D, 0x3F, 0x3A, 0x24, 0x21, 0x26,
        0x23, 0x27, 0x28, 0x29, 0x2E, 0x2C, 0x3B, 0x2F, 0x22, 0x07]) ∧
    ((∃ k, symbolFor usTty c = some (k, .neutral)) ↔ c.toNat ∈ [0x00, 0x0A, 0x0D, 0x20])

/-- The tag of a code symbol, and that the lookup of the US-TTY table gives a symbol of the tag its requirement says
(40_codetable.md R54). -/
def Obligations.SymbolTags : Prop :=
  (∀ h, symbolTag 0x1B#5 h = .shift ∧ symbolTag 0x1F#5 h = .shift ∧ symbolTag 0x00#5 h = .neutral ∧
    symbolTag 0x02#5 h = .neutral ∧ symbolTag 0x04#5 h = .neutral ∧ symbolTag 0x08#5 h = .neutral) ∧
  (∀ v : Sym, v ∉ [0x1B#5, 0x1F#5, 0x00#5, 0x02#5, 0x04#5, 0x08#5] →
    symbolTag v .letters = .letters ∧ symbolTag v .figures = .figures) ∧
  (∀ (c : Char21) (k : Sym) (req : ReqShift), symbolFor usTty c = some (k, req) →
    codeSymbolFor usTty c = some ⟨k, match req with
      | .letters => .letters
      | .figures => .figures
      | .neutral => .neutral⟩)

/-! ### The commands -/

/-- NOP: its word; legal in every phase, reads and writes nothing (43_encoder.md R116). -/
def Obligations.NopChangesNothing : Prop :=
  encode .nop = .word 0x00000000#32 ∧ ∀ s : State, exec .nop s = .next s

/-- CFG: its word; in IDLE and DONE it loads the bus into CFG and writes nothing else, whatever the values; illegal elsewhere
(43_encoder.md R117). -/
def Obligations.CfgLoadsBus : Prop :=
  encode .cfg = .word 0x01000000#32 ∧
  ∀ s : State,
    (s.phase = .idle ∨ s.phase = .done →
      exec .cfg s = .next { s with cfg := ⟨true, ⟨s.bus.baudRate, s.bus.sampleRate, s.bus.markFrequency,
        s.bus.spaceFrequency, s.bus.stopBitMultiplier, s.bus.amplitude, s.bus.skipUnknownChars, s.bus.outputFormat⟩⟩ }) ∧
    (s.phase = .accept ∨ s.phase = .synth → exec .cfg s = .next { s with cmdErr := true })

/-- The configuration check (43_encoder.md R118). -/
def Obligations.ConfigurationCheck : Prop :=
  ∀ c : CfgReg, cfgValid c = true ↔
    c.valid = true ∧ 0 < c.data.baudRate ∧ 0 < c.data.sampleRate ∧ c.data.markFrequency ≠ c.data.spaceFrequency ∧
    0 < c.data.amplitude ∧ c.data.amplitude ≤ 1 ∧ 1 ≤ c.data.stopBitMultiplier ∧
    0 < c.data.markFrequency ∧ 0 < c.data.spaceFrequency

/-- BEGIN: its word; in IDLE and DONE it opens a message, every per-message register at its start value, ERR by the
configuration check; CFG, CMDERR, CAPERR and all else unchanged; illegal elsewhere (43_encoder.md R119). -/
def Obligations.BeginOpensMessage : Prop :=
  encode .beginMsg = .word 0x02000000#32 ∧
  ∀ s : State,
    (s.phase = .idle ∨ s.phase = .done →
      exec .beginMsg s = .next
        { s with
          ss := .letters, charIdx := 0, symq := [], warn := [], errIndex := 0, errChar := 0, result := .none
          nTotal := 0, nSamp := 0, theta := 0, outbuf := []
          err := (if cfgValid s.cfg = true then .none else .invalidConfig), phase := .accept }) ∧
    (s.phase = .accept ∨ s.phase = .synth → exec .beginMsg s = .next { s with cmdErr := true })

/-- "no state leaks between calls" (43_encoder.md R125, which the spec derives): after BEGIN nothing is left of the previous
message: two blocks that differ only in per-message registers are then the same. -/
def Obligations.BeginForgetsPreviousMessage : Prop :=
  ∀ s s' : State, (s.phase = .idle ∨ s.phase = .done) → (s'.phase = .idle ∨ s'.phase = .done) →
    s.rom = s'.rom → s.maxSymbols = s'.maxSymbols → s.maxSamples = s'.maxSamples → s.sampling = s'.sampling →
    s.cfg = s'.cfg →
    s.cmdErr = s'.cmdErr → s.capErr = s'.capErr → s.bus = s'.bus → s.schedule = s'.schedule →
    exec .beginMsg s = exec .beginMsg s'

/-- PUSH c: its word; in ACCEPT FRAME_CHAR in its five cases; illegal elsewhere (41_framer.md R95; 43_encoder.md R120). -/
def Obligations.PushFramesOneCharacter : Prop :=
  (∀ c : Char21, encode (.push c) = .word (0x03000000#32 ||| c.zeroExtend 32)) ∧
  (∀ (s : State) (c : Char21), s.phase ≠ .accept → exec (.push c) s = .next { s with cmdErr := true }) ∧
  ∀ (s : State) (c : Char21), s.phase = .accept →
    (s.err ≠ .none → exec (.push c) s = .next { s with charIdx := s.charIdx + 1 }) ∧
    (s.err = .none → symbolFor s.rom c = none → s.cfg.data.skipUnknownChars = true →
      exec (.push c) s = .next { s with charIdx := s.charIdx + 1, warn := s.warn ++ [⟨s.charIdx, c⟩] }) ∧
    (s.err = .none → symbolFor s.rom c = none → s.cfg.data.skipUnknownChars = false →
      exec (.push c) s = .next
        { s with charIdx := s.charIdx + 1, err := .unsupportedCharacter, errIndex := s.charIdx, errChar := c }) ∧
    (∀ v req, s.err = .none → symbolFor s.rom c = some (v, req) →
      (s.roomFor ((shiftFor req s.ss).1.length + 1) →
        exec (.push c) s = .next
          { s with
            charIdx := s.charIdx + 1, symq := s.symq ++ (shiftFor req s.ss).1 ++ [v], ss := (shiftFor req s.ss).2 }) ∧
      (¬s.roomFor ((shiftFor req s.ss).1.length + 1) →
        exec (.push c) s = .next { s with charIdx := s.charIdx + 1, capErr := true }))

/-- Shift insertion, the five rows of the table of 41_framer.md R96, as a PUSH shows them. -/
def Obligations.ShiftInsertion : Prop :=
  ∀ (s : State) (c : Char21) (v : Sym), s.phase = .accept → s.err = .none → s.roomFor 2 →
    ∃ t, exec (.push c) s = .next t ∧
      (symbolFor s.rom c = some (v, .letters) →
        (s.ss = .letters → t.symq = s.symq ++ [v] ∧ t.ss = .letters) ∧
        (s.ss = .figures → t.symq = s.symq ++ [0x1F#5, v] ∧ t.ss = .letters)) ∧
      (symbolFor s.rom c = some (v, .figures) →
        (s.ss = .letters → t.symq = s.symq ++ [0x1B#5, v] ∧ t.ss = .figures) ∧
        (s.ss = .figures → t.symq = s.symq ++ [v] ∧ t.ss = .figures)) ∧
      (symbolFor s.rom c = some (v, .neutral) → t.symq = s.symq ++ [v] ∧ t.ss = s.ss)

/-- END: its word; in ACCEPT a failed message, a good one, a good one over MAX_SAMPLES; illegal elsewhere (43_encoder.md
R121). N is the B_E of 42_synthesizer.md R104, spelled out. -/
def Obligations.EndClosesMessage : Prop :=
  encode .endMsg = .word 0x04000000#32 ∧
  (∀ s : State, s.phase ≠ .accept → exec .endMsg s = .next { s with cmdErr := true }) ∧
  ∀ s : State, s.phase = .accept →
    let N := (((s.symq.length : Rat) * (6 + s.cfg.data.stopBitMultiplier) * s.cfg.data.sampleRate
      / s.cfg.data.baudRate) + 1 / 2).floor.toNat
    (s.err = .invalidConfig → exec .endMsg s = .next { s with symq := [], result := .invalidConfig, phase := .done }) ∧
    (s.err = .unsupportedCharacter →
      exec .endMsg s = .next { s with symq := [], result := .unsupportedCharacter, phase := .done }) ∧
    (s.err = .none → (∀ m, s.maxSamples = some m → N ≤ m) →
      exec .endMsg s = .next { s with nTotal := N, nSamp := 0, phase := .synth }) ∧
    (s.err = .none → (∃ m, s.maxSamples = some m ∧ m < N) → exec .endMsg s = .next { s with capErr := true })

/-- A command outside its phases: CMDERR and no other effect; the "illegal" entries of 43_encoder.md R115, with the
legal ones beside them. NOP has none. -/
def Obligations.CommandPhaseTable : Prop :=
  ∀ s : State,
    (∃ t, exec .nop s = .next t ∧ t.phase = s.phase ∧ t.cmdErr = s.cmdErr) ∧
    (s.phase = .accept ∨ s.phase = .synth → exec .cfg s = .next { s with cmdErr := true }) ∧
    (s.phase = .idle ∨ s.phase = .done → ∃ t, exec .cfg s = .next t ∧ t.phase = s.phase ∧ t.cmdErr = s.cmdErr) ∧
    (s.phase = .accept ∨ s.phase = .synth → exec .beginMsg s = .next { s with cmdErr := true }) ∧
    (s.phase = .idle ∨ s.phase = .done →
      ∃ t, exec .beginMsg s = .next t ∧ t.phase = .accept ∧ t.cmdErr = s.cmdErr) ∧
    (∀ c, s.phase ≠ .accept → exec (.push c) s = .next { s with cmdErr := true }) ∧
    (∀ c, s.phase = .accept → ∃ t, exec (.push c) s = .next t ∧ t.phase = .accept ∧ t.cmdErr = s.cmdErr) ∧
    (s.phase ≠ .accept → exec .endMsg s = .next { s with cmdErr := true }) ∧
    (s.phase = .accept → ∃ t, exec .endMsg s = .next t ∧ t.cmdErr = s.cmdErr ∧
      (s.err ≠ .none → t.phase = .done) ∧
      (s.err = .none → t.phase = .synth ∨
        (t.phase = .accept ∧ t.capErr = true ∧
          ∃ m, s.maxSamples = some m ∧ m < messageSamples s.cfg.data s.symq.length))) ∧
    (∀ s', s.blockNext s' → CodeTable.wf s.rom = true → s.phase ≠ .synth → step s = .next s')

/-- ILLEGAL_COMMAND: every illegal word, and no other move, sets CMDERR; the word has no other effect (60_exceptions.md R130;
30_encoding.md R48; 43_encoder.md R115; 10_state.md R13). That a word is taken from a schedule with its bus value is the
model's choice (assumption log 2). -/
def Obligations.IllegalCommandFault : Prop :=
  ∀ s t : State, step s = .next t → ¬s.resetNext →
    (s.illegalNext → ∃ w d rest, s.schedule = .command w d :: rest ∧
      t = { s with schedule := rest, bus := d, cmdErr := true }) ∧
    (¬s.illegalNext → t.cmdErr = s.cmdErr)

/-- CAPACITY: only a PUSH or an END over a capacity sets CAPERR, and with both capacities unbounded nothing does
(60_exceptions.md R131). -/
def Obligations.CapacityFault : Prop :=
  ∀ s t : State, step s = .next t → ¬s.resetNext → t.capErr = true → s.capErr = false →
    s.phase = .accept ∧ s.err = .none ∧ t.symq = s.symq ∧ t.ss = s.ss ∧ t.nTotal = s.nTotal ∧ t.phase = s.phase ∧
    ((∃ c v req m, s.nextCommand = some (.push c) ∧ symbolFor s.rom c = some (v, req) ∧ s.maxSymbols = some m ∧
        m < s.symq.length + (shiftFor req s.ss).1.length + 1 ∧ t.charIdx = s.charIdx + 1) ∨
      (∃ m, s.nextCommand = some .endMsg ∧ s.maxSamples = some m ∧ m < messageSamples s.cfg.data s.symq.length ∧
        t.charIdx = s.charIdx))

/-! ### The line: frames, time, samples -/

/-- Element 7j + i of a message is position i of frame j, and a message of F symbols has 7F elements (41_framer.md R97). -/
def Obligations.FrameLayout : Prop :=
  ∀ (q : List Sym) (M : Rat),
    (elements q M).length = 7 * q.length ∧
    ∀ (j : Nat) (v : Sym), q[j]? = some v →
      (elements q M)[7 * j]? = some ⟨.space, 1⟩ ∧
      (∀ b, b < 5 → (elements q M)[7 * j + (b + 1)]? = some ⟨if v.getLsbD b then .mark else .space, 1⟩) ∧
      (elements q M)[7 * j + 6]? = some ⟨.mark, M⟩

/-- The element boundaries: D_0 = 0, D_{k+1} = D_k + w_k, D in closed form, B_k rounded half up from D_k, and the samples an
element covers (42_synthesizer.md R104). -/
def Obligations.ElementBoundaries : Prop :=
  (∀ M : Rat, startTime M 0 = 0) ∧
  (∀ (q : List Sym) (M : Rat) (k : Nat) (e : Element), (elements q M)[k]? = some e →
    startTime M (k + 1) = startTime M k + e.width) ∧
  (∀ (M : Rat) (j i : Nat), i ≤ 6 → startTime M (7 * j + i) = (j : Rat) * (6 + M) + (i : Rat)) ∧
  (∀ (d : CfgData) (k : Nat), cfgValid ⟨true, d⟩ = true →
    ((boundary d k : Int)) = ⌊startTime d.stopBitMultiplier k * d.sampleRate / d.baudRate + 1 / 2⌋) ∧
  (∀ (d : CfgData) (E n k : Nat), elemOf d E n = some k → k < E ∧ boundary d k ≤ n ∧ n < boundary d (k + 1))

/-- No drift: every boundary is within half a sample of its exact time, however long the message
(42_synthesizer.md R112, which the spec derives). -/
def Obligations.NoDrift : Prop :=
  ∀ (d : CfgData) (k : Nat), cfgValid ⟨true, d⟩ = true →
    |(boundary d k : Rat) - startTime d.stopBitMultiplier k * d.sampleRate / d.baudRate| ≤ 1 / 2

/-- Every sample of a message lies in exactly one element, and `elemOf` finds it (42_synthesizer.md R106, which the spec
derives). -/
def Obligations.ElementOfSample : Prop :=
  ∀ (d : CfgData) (F n : Nat), cfgValid ⟨true, d⟩ = true → n < messageSamples d F →
    ∃ k, k < 7 * F ∧ boundary d k ≤ n ∧ n < boundary d (k + 1) ∧ elemOf d (7 * F) n = some k ∧
      ∀ k', boundary d k' ≤ n → n < boundary d (k' + 1) → k' = k

/-- Frame count: a good message has L + S symbols and its total width is (L + S)(6 + M) bit times
(41_framer.md R100, which the spec derives). -/
def Obligations.FrameCount : Prop :=
  ∀ (rom : CodeTable) (d : CfgData) (text : List Char21), CodeTable.wf rom = true →
    (frameText rom d text).stopped = none →
    let Q := (frameText rom d text).symbols
    let L := text.countP fun c => (symbolFor rom c).isSome
    let S := Q.countP fun v => v == 0x1B#5 || v == 0x1F#5
    Q.length = L + S ∧
      ((elements Q d.stopBitMultiplier).map Element.width).sum = ((L + S : Nat) : Rat) * (6 + d.stopBitMultiplier)

/-- SYNTH_SAMPLE, for each of the 32 code symbols: while its frame is on the line, the block appends the sample of the phase
before the update, advances the phase by the tone of the element, and counts the sample; nothing else changes
(42_synthesizer.md R108). Sample 0 is taken at phase 0. -/
def Obligations.SymbolSendsOneSample : Prop :=
  (∀ (i : Instr) (v : Sym) (k : Nat) (e : Element) (s : State), encode i = .symbol v →
    s.phase = .synth → s.nSamp < s.nTotal → cfgValid s.cfg = true → k < 7 * s.symq.length →
    boundary s.cfg.data k ≤ s.nSamp → s.nSamp < boundary s.cfg.data (k + 1) → s.symq[k / 7]? = some v →
    (elements s.symq s.cfg.data.stopBitMultiplier)[k]? = some e →
    exec i s = .next
      { s with
        outbuf := s.outbuf ++ [conv s.cfg.data.outputFormat (sampleFn s.sampling s.cfg.data.amplitude s.theta)]
        theta := frac (s.theta +
          (match e.tone with
            | .mark => s.cfg.data.markFrequency
            | .space => s.cfg.data.spaceFrequency) / s.cfg.data.sampleRate)
        nSamp := s.nSamp + 1 }) ∧
  (∀ s : State, s.Inv → s.phase = .synth → s.nSamp = 0 → s.theta = 0)

/-- A code symbol that is not the one on the line is not run: the SYNTH step is not enabled for it (43_encoder.md R115). That
this is a refusal by name is the model's choice (assumption log 1). -/
def Obligations.SymbolOffLineRefused : Prop :=
  ∀ (i : Instr) (v : Sym) (s : State), encode i = .symbol v →
    s.phase ≠ .synth ∨ s.nTotal ≤ s.nSamp ∨ s.onLine ≠ some v → exec i s = .refused .symbolNotOnLine

/-- The SYNTH step: enabled exactly in SYNTH; one sample, or the finish (43_encoder.md R122). -/
def Obligations.SynthStep : Prop :=
  ∀ s s' : State, s.Inv → s.blockNext s' →
    (s.phase ≠ .synth → step s = .next s') ∧
    (s.phase = .synth → s.nSamp = s.nTotal → step s = .next { s' with result := .ok, phase := .done }) ∧
    (s.phase = .synth → s.nSamp ≠ s.nTotal →
      ∃ tone, toneAt s.cfg.data s.symq s.nSamp = some tone ∧
        step s = .next
          { s' with
            outbuf := s.outbuf ++ [conv s.cfg.data.outputFormat (sampleFn s.sampling s.cfg.data.amplitude s.theta)]
            theta := frac (s.theta +
              (match tone with
                | .mark => s.cfg.data.markFrequency
                | .space => s.cfg.data.spaceFrequency) / s.cfg.data.sampleRate)
            nSamp := s.nSamp + 1 })

/-- Phase continuity in closed form: while a message is synthesized its phase is that of all samples so far, each at its own
tone, with no reset between elements (42_synthesizer.md R113, which the spec derives). -/
def Obligations.PhaseContinuity : Prop :=
  ∀ s : State, s.Inv → s.phase = .synth → s.theta = closedPhase s.cfg.data s.symq s.nSamp

/-- SAMPLE_FN is a number within [-A, A], 0 at phase 0, in every FLOAT_FORMAT and for every value of the free function
(42_synthesizer.md R109, P3 and P4). -/
def Obligations.SampleBounds : Prop :=
  ∀ (p : Sampling) (A θ : Rat), 0 ≤ A →
    (sampleFn p A θ).format = p.format ∧
    ∃ r, FloatVal.val (sampleFn p A θ) = some r ∧ -A ≤ r ∧ r ≤ A ∧ (θ = 0 → r = 0)

/-- Every FLOAT sample of a message is within EPS_SIN of the sine of the phase before the update (42_synthesizer.md R109, P2;
R108). -/
def Obligations.FloatSampleAccuracy : Prop :=
  ∀ (s s' : State), s.Inv → s.blockNext s' → s.phase = .synth → s.nSamp ≠ s.nTotal →
    s.cfg.data.outputFormat = .float →
    ∃ t v r, step s = .next t ∧ t.outbuf = s.outbuf ++ [.float v] ∧ v.format = s.sampling.format ∧
      FloatVal.val v = some r ∧
      |(r : Real) - (s.cfg.data.amplitude : Real) * Real.sin (2 * Real.pi * (s.theta : Real))| ≤
        ((epsSin s.sampling : Rat) : Real)

/-- Output conversion: FLOAT is the value itself; INT16 is the integer nearest to 32767 s, halves away from zero, within
±32767, and never -32768 (42_synthesizer.md R110). -/
def Obligations.OutputConversion : Prop :=
  (∀ v : FloatVal, conv .float v = .float v) ∧
  (∀ v : FloatVal, ∃ q, conv .int16 v = .int16 q ∧ -32767 ≤ q.toInt ∧ q.toInt ≤ 32767 ∧
    (widenSample q).toInt = q.toInt) ∧
  (∀ (v : FloatVal) (r : Rat) (q : Int), FloatVal.val v = some r →
    (|r * 32767 - (q : Rat)| < 1 / 2 ∨ (|r * 32767 - (q : Rat)| = 1 / 2 ∧ |r * 32767| ≤ |(q : Rat)|)) →
    conv .int16 v = .int16 (BitVec.ofInt 16 (min 32767 (max (-32767) q))))

/-! ### Reset, faults, whole-machine rules -/

/-- The reset input: every register at its reset value, in every phase; CFG.valid = 0, the other CFG fields any value; the ROM
and the parameters unchanged (70_reset_and_hazards.md R141). State.reset has those values, with the named zeros of assumption
log 5 in the unspecified fields. -/
def Obligations.ResetInput : Prop :=
  (∀ (s : State) (d : CfgData) (rest : List Event), CodeTable.wf s.rom = true → s.schedule = .reset d :: rest →
    step s = .next
      { s with
        schedule := rest, phase := .idle, ss := .letters, err := .none, errIndex := 0, errChar := 0, result := .none
        cmdErr := false, capErr := false, charIdx := 0, symq := [], warn := [], nTotal := 0, nSamp := 0, theta := 0
        outbuf := [], cfg := ⟨false, d⟩ }) ∧
  State.reset.status = 0#32 ∧ State.reset.rom = usTty ∧ State.reset.maxSymbols = none ∧ State.reset.maxSamples = none ∧
  State.reset.sampling.format = .binary64

/-- The invariant holds right after reset. -/
def Obligations.ResetSatisfiesInvariant : Prop := State.reset.Inv

/-- The invariant is kept by every step of every state that has it: every move of the host, the block and the reset input. -/
def Obligations.StepKeepsInvariant : Prop := ∀ s t : State, s.Inv → step s = .next t → t.Inv

/-- From every state with the invariant every step completes: no fault, no refusal, whatever the host does. In particular the
stuck state of a sample with no element is never reached (42_synthesizer.md R106; 60_exceptions.md R132). -/
def Obligations.EveryStepCompletes : Prop := ∀ s : State, s.Inv → ∃ t, step s = .next t

/-- STATUS, bit by bit (10_state.md R18). -/
def Obligations.StatusWord : Prop :=
  ∀ s : State,
    (s.status.extractLsb' 0 2).toNat = (match s.phase with
      | .idle => 0
      | .accept => 1
      | .synth => 2
      | .done => 3) ∧
    (s.status.extractLsb' 2 2).toNat = (match s.result with
      | .none => 0
      | .ok => 1
      | .invalidConfig => 2
      | .unsupportedCharacter => 3) ∧
    s.status.getLsbD 4 = s.cmdErr ∧ s.status.getLsbD 5 = s.capErr ∧
    s.status.getLsbD 6 = decide (s.ss = .figures) ∧ s.status.getLsbD 7 = s.cfg.valid ∧
    s.status.extractLsb' 8 24 = 0#24 ∧ readPort s .status = .ok (.word s.status)

/-- Reads of the sequences: the entry below the length, the host error at and past it (10_state.md R19). -/
def Obligations.ReadsPastTheEndStuck : Prop :=
  ∀ (s : State) (i : Nat),
    (∀ x, s.outbuf[i]? = some x → readPort s (.outbuf i) = .ok (.sample x)) ∧
    (∀ x, s.warn[i]? = some x → readPort s (.warn i) = .ok (.warnRecord x)) ∧
    (∀ x, s.symq[i]? = some x → readPort s (.symq i) = .ok (.symbol x)) ∧
    (s.outbuf.length ≤ i → readPort s (.outbuf i) = .error .readPastEnd) ∧
    (s.warn.length ≤ i → readPort s (.warn i) = .error .readPastEnd) ∧
    (s.symq.length ≤ i → readPort s (.symq i) = .error .readPastEnd)

/-- CFG accepts any values and reads return them unchanged (10_state.md R16). -/
def Obligations.ConfigurationReadBack : Prop :=
  ∀ s : State, s.phase = .idle ∨ s.phase = .done →
    ∃ t, exec .cfg s = .next t ∧ readPort t .cfgValid = .ok (.bit true) ∧
      readPort t .cfgBaudRate = .ok (.rat s.bus.baudRate) ∧ readPort t .cfgSampleRate = .ok (.rat s.bus.sampleRate) ∧
      readPort t .cfgMarkFrequency = .ok (.rat s.bus.markFrequency) ∧
      readPort t .cfgSpaceFrequency = .ok (.rat s.bus.spaceFrequency) ∧
      readPort t .cfgStopBitMultiplier = .ok (.rat s.bus.stopBitMultiplier) ∧
      readPort t .cfgAmplitude = .ok (.rat s.bus.amplitude) ∧
      readPort t .cfgSkipUnknownChars = .ok (.bit s.bus.skipUnknownChars) ∧
      readPort t .cfgOutputFormat = .ok (.format s.bus.outputFormat)

/-- PHASE changes only as 43_encoder.md R115 lists (10_state.md R20). -/
def Obligations.PhaseTransitions : Prop :=
  ∀ s t : State, step s = .next t → t.phase ≠ s.phase →
    (s.resetNext ∧ t.phase = .idle) ∨
    ((s.phase = .idle ∨ s.phase = .done) ∧ s.nextCommand = some .beginMsg ∧ t.phase = .accept) ∨
    (s.phase = .accept ∧ s.nextCommand = some .endMsg ∧
      ((s.err ≠ .none ∧ t.phase = .done) ∨ (s.err = .none ∧ t.phase = .synth))) ∨
    (s.phase = .synth ∧ s.nSamp = s.nTotal ∧ (∃ s', s.blockNext s') ∧ t.phase = .done)

/-- CMDERR and CAPERR are sticky: only reset clears them (10_state.md R24). -/
def Obligations.FaultBitsSticky : Prop :=
  ∀ s t : State, step s = .next t →
    (¬s.resetNext → (s.cmdErr = true → t.cmdErr = true) ∧ (s.capErr = true → t.capErr = true)) ∧
    (s.resetNext → t.cmdErr = false ∧ t.capErr = false)

/-- The ROM is immutable, and the other build-time parameters are fixed: no command, step or reset writes them
(20_memory.md R35; 00_scope.md R6). That they are fields of State is the model's form (assumption log 9). -/
def Obligations.RomImmutable : Prop :=
  ∀ s t : State, step s = .next t →
    t.rom = s.rom ∧ t.maxSymbols = s.maxSymbols ∧ t.maxSamples = s.maxSamples ∧ t.sampling = s.sampling

/-- Configuration is fixed for a whole message: only the CFG command in IDLE or DONE, or reset, changes CFG; in ACCEPT and SYNTH
a CFG raises CMDERR (70_reset_and_hazards.md R144). -/
def Obligations.ConfigurationFixedInMessage : Prop :=
  ∀ s t : State, step s = .next t → ¬s.resetNext → s.phase = .accept ∨ s.phase = .synth →
    t.cfg = s.cfg ∧ (s.nextCommand = some .cfg → t.cmdErr = true)

/-- SYMQ, WARN and OUTBUF are append-only; the only exceptions are BEGIN, reset and the END of a failed message
(20_memory.md R36). -/
def Obligations.QueuesAppendOnly : Prop :=
  ∀ s t : State, step s = .next t →
    (¬s.resetNext → t.phase = s.phase ∨ s.nextCommand ≠ some .beginMsg →
      s.warn <+: t.warn ∧ s.outbuf <+: t.outbuf ∧
      (s.symq <+: t.symq ∨ (s.nextCommand = some .endMsg ∧ s.phase = .accept ∧ s.err ≠ .none ∧ t.symq = []))) ∧
    (s.resetNext ∨ (s.nextCommand = some .beginMsg ∧ t.phase ≠ s.phase) → t.symq = [] ∧ t.warn = [] ∧ t.outbuf = []) ∧
    (∀ s', s.blockNext s' → t.symq = s.symq)

/-- SS changes only when the Framer emits a shift-control symbol, or is set to LETTERS at BEGIN and reset (10_state.md R21). -/
def Obligations.ShiftStateWriters : Prop :=
  ∀ s t : State, step s = .next t → t.ss ≠ s.ss →
    (t.ss = .letters ∧ (s.resetNext ∨ (s.nextCommand = some .beginMsg ∧ t.phase = .accept))) ∨
    ((∃ c, s.nextCommand = some (.push c)) ∧
      ∃ v, t.symq = s.symq ++ [(match t.ss with
        | .letters => 0x1F#5
        | .figures => 0x1B#5), v])

/-- Once ERR is latched, nothing but BEGIN or reset changes ERR, ERR_INDEX or ERR_CHAR (10_state.md R22). -/
def Obligations.FirstErrorLatched : Prop :=
  ∀ s t : State, step s = .next t → s.err ≠ .none → ¬s.resetNext →
    ¬(s.nextCommand = some .beginMsg ∧ s.phase = .done) → s.phase ≠ .idle →
    t.err = s.err ∧ t.errIndex = s.errIndex ∧ t.errChar = s.errChar

/-- A finished message stays as it is, RESULT, OUTBUF, WARN and SYMQ, until BEGIN or reset (20_memory.md R43;
70_reset_and_hazards.md R145). -/
def Obligations.ResultKeptUntilBegin : Prop :=
  ∀ s t : State, step s = .next t → s.phase = .done → ¬s.resetNext → s.nextCommand ≠ some .beginMsg →
    t.phase = .done ∧ t.result = s.result ∧ t.outbuf = s.outbuf ∧ t.warn = s.warn ∧ t.symq = s.symq ∧
    t.errIndex = s.errIndex ∧ t.errChar = s.errChar

/-- A message takes exactly NTOTAL + 1 SYNTH steps: while the host is quiet, or waits, the block makes one sample a step until
all are made and the next step finishes the message (43_encoder.md R122, which the spec derives; 30_encoding.md R53;
70_reset_and_hazards.md R151). The schedule is the model's (assumption log 2). -/
def Obligations.SynthesisTerminates : Prop :=
  ∀ s : State, s.Inv → s.phase = .synth → s.schedule = [] ∨ (∃ rest, s.schedule = .wait :: rest) →
    (∀ j, j ≤ s.nTotal - s.nSamp →
      ∃ t, Host.Core.run Sys2Proof.core j s = .next t ∧ t.phase = .synth ∧ t.nSamp = s.nSamp + j) ∧
    ∃ t : State, Host.Core.run Sys2Proof.core (s.nTotal - s.nSamp + 1) s = .next t ∧ t.phase = .done ∧
      t.result = .ok ∧ t.outbuf.length = s.nTotal ∧ t.symq = s.symq ∧ t.warn = s.warn ∧ t.schedule = s.schedule

/-- The law of ENCODE: from any state in IDLE or DONE with no fault, `CFG cfg; SEND text; WAIT` ends in DONE with exactly what
the reference function gives, when the message fits the capacities (43_encoder.md R123, which the spec derives). The
schedule is the model's (assumption log 2). -/
def Obligations.BlockComputesEncode : Prop :=
  ∀ (s : State) (d : CfgData) (text : List Char21), CodeTable.wf s.rom = true → s.phase = .idle ∨ s.phase = .done →
    s.cmdErr = false → s.capErr = false → s.schedule = callEvents d text → encodeFits s d text = true →
    ∃ (k : Nat) (t : State), Host.Core.run Sys2Proof.core k s = .next t ∧ t.phase = .done ∧ t.schedule = [] ∧
      t.cmdErr = false ∧ t.capErr = false ∧
      match encodeText s.rom s.sampling d text with
      | .ok out W => t.result = .ok ∧ t.outbuf = out ∧ t.warn = W
      | .invalidConfig => t.result = .invalidConfig ∧ t.outbuf = [] ∧ t.warn = []
      | .unsupportedCharacter i c =>
        t.result = .unsupportedCharacter ∧ t.errIndex = i ∧ t.errChar = c ∧ t.outbuf = []

/-- SEND expands to BEGIN, one PUSH a character in order, END, each the word of the opcode map. WAIT issues no command: until
PHASE = DONE the block takes its turns and nothing is taken from the schedule; then the host goes on (30_encoding.md
R53). The schedule is the model's (assumption log 2). -/
def Obligations.SendExpansion : Prop :=
  (∀ (text : List Char21) (bus : CfgData),
    AsmLine.events bus (.send text) =
      [.command 0x02000000#32 bus] ++ text.map (fun c => .command (0x03000000#32 ||| c.zeroExtend 32) bus) ++
        [.command 0x04000000#32 bus] ∧
    AsmLine.events bus .wait = [.wait]) ∧
  ∀ (s : State) (rest : List Event), CodeTable.wf s.rom = true → s.schedule = .wait :: rest →
    s.nextCommand = none ∧
    (s.phase = .idle ∨ s.phase = .accept → step s = .next s) ∧
    (s.phase = .synth → step s = blockTurn s ∧ ∀ t, step s = .next t → t.schedule = .wait :: rest) ∧
    (s.phase = .done → step s = .next { s with schedule := rest })

/-- Instances are independent (60_exceptions.md R138): one step of the instance at a position is that block's own step, whatever
the other instances are, and it leaves every other instance as it was. The list of states and the position are the
model's (assumption log 17). -/
def Obligations.InstancesIndependent : Prop :=
  ∀ (blocks : List State) (i : Nat),
    (∀ s, blocks[i]? = some s →
      (∀ t, step s = .next t → stepInstance i blocks = .next (blocks.set i t)) ∧
      (∀ r, step s = .fault r → stepInstance i blocks = .fault r) ∧
      (∀ r, step s = .refused r → stepInstance i blocks = .refused r)) ∧
    (blocks[i]? = none → stepInstance i blocks = .next blocks) ∧
    (∀ blocks', stepInstance i blocks = .next blocks' →
      blocks'.length = blocks.length ∧ (∀ j, j ≠ i → blocks'[j]? = blocks[j]?) ∧
      (∀ s, blocks[i]? = some s → ∃ t, step s = .next t ∧ blocks'[i]? = some t))
end

