-- ==== Sys2Proof/Laws/Arith.lean ====
section
/-! SUPPORT. The rounding functions in the library's terms, and their ranges. -/

namespace Sys2Proof.Machine

theorem floor_eq (x : Rat) : x.floor = ⌊x⌋ := rfl

/-- `frac` is the library's fractional part. -/
theorem frac_eq_fract (x : Rat) : frac x = Int.fract x := rfl

theorem frac_nonneg (x : Rat) : 0 ≤ frac x := Int.fract_nonneg x

theorem frac_lt_one (x : Rat) : frac x < 1 := Int.fract_lt_one x

@[simp] theorem frac_zero : frac 0 = 0 := Int.fract_zero

/-- Adding before or after taking the fractional part is the same. -/
theorem frac_frac_add (x y : Rat) : frac (frac x + y) = frac (x + y) := by
  simp only [frac_eq_fract, Int.fract_eq_fract]
  refine ⟨-⌊x⌋, ?_⟩
  rw [← Int.self_sub_floor]
  push_cast
  ring

theorem roundHalfUp_eq (x : Rat) : roundHalfUp x = ⌊x + 1 / 2⌋ := rfl

theorem roundHalfUp_mono {x y : Rat} (h : x ≤ y) : roundHalfUp x ≤ roundHalfUp y := by
  rw [roundHalfUp_eq, roundHalfUp_eq]
  exact Int.floor_le_floor (by linarith)

theorem roundHalfUp_nonneg {x : Rat} (h : 0 ≤ x) : 0 ≤ roundHalfUp x := by
  rw [roundHalfUp_eq]
  exact Int.floor_nonneg.mpr (by linarith)

/-- Rounding half up moves a number by at most a half. -/
theorem abs_roundHalfUp_sub_le (x : Rat) : |(roundHalfUp x : Rat) - x| ≤ 1 / 2 := by
  rw [roundHalfUp_eq, abs_le]
  have h1 := Int.floor_le (x + 1 / 2)
  have h2 := Int.lt_floor_add_one (x + 1 / 2)
  constructor <;> linarith

theorem sat16_le (q : Int) : sat16 q ≤ 32767 := by unfold sat16; omega

theorem le_sat16 (q : Int) : -32767 ≤ sat16 q := by unfold sat16; omega

end Sys2Proof.Machine
end

