-- ==== Sys2Proof/Laws/CodeTable.lean ====
section
/-! SUPPORT. The code table: what the checks W1 to W4 give, and what a successful lookup says. -/

namespace Sys2Proof.Machine

/-- Every 5-bit value is one of the 32 codes. -/
@[simp] theorem mem_allSyms (v : Sym) : v ∈ allSyms := by
  rw [allSyms, List.mem_map]
  exact ⟨v.toNat, by simpa using v.isLt, by simp⟩

theorem holdsChar_iff (rom : CodeTable) (half : ShiftState) (c : Char21) (k : Sym) :
    holdsChar rom half c k = true ↔
      (CodeTable.entry rom half k).present = true ∧ (CodeTable.entry rom half k).char = c := by
  simp [holdsChar]

/-- The shift codes hold no character in a legal table (W3). -/
theorem wf_w3 {rom : CodeTable} (h : CodeTable.wf rom = true) (half : ShiftState) :
    (CodeTable.entry rom half 0x1B#5).present = false ∧ (CodeTable.entry rom half 0x1F#5).present = false := by
  simp only [CodeTable.wf, Bool.and_eq_true] at h
  have h3 := h.1.2
  simp only [CodeTable.w3, Bool.and_eq_true, Bool.not_eq_true'] at h3
  cases half <;> simp [h3]

/-- Within one half a character has one code in a legal table (W1). -/
theorem wf_w1 {rom : CodeTable} (h : CodeTable.wf rom = true) {half : ShiftState} {c : Char21} {a b : Sym}
    (ha : holdsChar rom half c a = true) (hb : holdsChar rom half c b = true) : a = b := by
  simp only [CodeTable.wf, Bool.and_eq_true] at h
  have h1 := h.1.1.1
  rw [CodeTable.w1, List.all_eq_true] at h1
  have h2 := List.all_eq_true.mp (h1 half (by cases half <;> simp)) a (mem_allSyms a)
  have h3 := List.all_eq_true.mp h2 b (mem_allSyms b)
  rw [holdsChar_iff] at ha hb
  simpa [ha, hb] using h3

/-- A character of both halves has the same, NEUTRAL, code in both (W2). -/
theorem wf_w2 {rom : CodeTable} (h : CodeTable.wf rom = true) {c : Char21} {a b : Sym}
    (ha : holdsChar rom .letters c a = true) (hb : holdsChar rom .figures c b = true) :
    a = b ∧ isNeutralCode a = true := by
  simp only [CodeTable.wf, Bool.and_eq_true] at h
  have h2 := h.1.1.2
  rw [CodeTable.w2, List.all_eq_true] at h2
  have h3 := List.all_eq_true.mp (h2 a (mem_allSyms a)) b (mem_allSyms b)
  rw [holdsChar_iff] at ha hb
  simpa [ha, hb] using h3

/-- Folding leaves a character scalar or not as it was: it moves ASCII letters only (40_codetable.md R56). -/
theorem isScalar_fold (c : Char21) : isScalar (fold c) = isScalar c := by
  unfold fold
  split_ifs with h
  · have hs : (c - 0x20).toNat = c.toNat - 0x20 := by
      rw [BitVec.toNat_sub]
      simp
      omega
    have h1 : (c - 0x20).toNat < 0xD800 := by omega
    have h2 : c.toNat < 0xD800 := by omega
    simp only [isScalar, h1, h2, decide_true, Bool.true_or]
  · rfl

/-- The three ways the branches of the lookup succeed (40_codetable.md R90). -/
theorem lookupFolded_some {rom : CodeTable} {c : Char21} {v : Sym} {req : ReqShift}
    (h : lookupFolded rom c = some (v, req)) :
    (req = .neutral ∧ holdsChar rom .letters c v = true ∧ holdsChar rom .figures c v = true) ∨
    (req = .letters ∧ holdsChar rom .letters c v = true ∧ holdsChar rom .figures c v = false) ∨
    (req = .figures ∧ holdsChar rom .figures c v = true ∧ ∀ k, holdsChar rom .letters c k = false) := by
  unfold lookupFolded at h
  split at h
  · rename_i k hk
    have := List.find?_some hk
    simp only [Option.some.injEq, Prod.mk.injEq, Bool.and_eq_true] at h this
    obtain ⟨rfl, rfl⟩ := h
    exact .inl ⟨rfl, this⟩
  · rename_i hn
    split at h
    · rename_i k hk
      have := List.find?_some hk
      simp only [Option.some.injEq, Prod.mk.injEq] at h
      obtain ⟨rfl, rfl⟩ := h
      exact .inr (.inl ⟨rfl, this, by simpa [this] using List.find?_eq_none.mp hn k (mem_allSyms k)⟩)
    · rename_i hl
      split at h
      · rename_i k hk
        have := List.find?_some hk
        simp only [Option.some.injEq, Prod.mk.injEq] at h
        obtain ⟨rfl, rfl⟩ := h
        refine .inr (.inr ⟨rfl, this, fun k => ?_⟩)
        simpa using List.find?_eq_none.mp hl k (mem_allSyms k)
      · simp at h

/-- The branches fail exactly where neither half holds the character (40_codetable.md R90). -/
theorem lookupFolded_none {rom : CodeTable} {c : Char21} :
    lookupFolded rom c = none ↔ ∀ half k, holdsChar rom half c k = false := by
  constructor
  · intro h
    unfold lookupFolded at h
    split at h
    · simp at h
    · split at h
      · simp at h
      · rename_i hl
        split at h
        · simp at h
        · rename_i hf
          intro half k
          cases half
          · simpa using List.find?_eq_none.mp hl k (mem_allSyms k)
          · simpa using List.find?_eq_none.mp hf k (mem_allSyms k)
  · intro h
    have h1 : ∀ half, allSyms.find? (holdsChar rom half c) = none := by
      intro half
      simp [h half]
    have h2 : allSyms.find? (fun k => holdsChar rom .letters c k && holdsChar rom .figures c k) = none := by
      simp [h .letters]
    simp [lookupFolded, h1, h2]

/-- What a successful lookup says, once and for all (40_codetable.md R90; 10_state.md R28). -/
theorem symbolFor_some {rom : CodeTable} {c : Char21} {v : Sym} {req : ReqShift}
    (h : symbolFor rom c = some (v, req)) : isScalar c = true ∧
    ((req = .neutral ∧ holdsChar rom .letters (fold c) v = true ∧ holdsChar rom .figures (fold c) v = true) ∨
    (req = .letters ∧ holdsChar rom .letters (fold c) v = true ∧ holdsChar rom .figures (fold c) v = false) ∨
    (req = .figures ∧ holdsChar rom .figures (fold c) v = true ∧ ∀ k, holdsChar rom .letters (fold c) k = false)) := by
  unfold symbolFor at h
  split_ifs at h with hs
  exact ⟨hs, lookupFolded_some h⟩

/-- A lookup fails exactly on a character that is no scalar value and where neither half holds the folded character
(40_codetable.md R90; 10_state.md R28). -/
theorem symbolFor_none {rom : CodeTable} {c : Char21} :
    symbolFor rom c = none ↔ isScalar c = false ∨ ∀ half k, holdsChar rom half (fold c) k = false := by
  rw [← lookupFolded_none, symbolFor]
  cases isScalar c <;> simp

/-- No character gives a shift code in a legal table (40_codetable.md R90; W3 of R57). -/
theorem symbolFor_not_shift {rom : CodeTable} (hw : CodeTable.wf rom = true) {c : Char21} {v : Sym} {req : ReqShift}
    (h : symbolFor rom c = some (v, req)) : v ≠ figs ∧ v ≠ ltrs := by
  have hp : ∃ half, (CodeTable.entry rom half v).present = true := by
    rcases (symbolFor_some h).2 with ⟨-, h1, -⟩ | ⟨-, h1, -⟩ | ⟨-, h1, -⟩
    all_goals exact ⟨_, ((holdsChar_iff _ _ _ _).mp h1).1⟩
  obtain ⟨half, hp⟩ := hp
  obtain ⟨hB, hF⟩ := wf_w3 hw half
  constructor <;> rintro rfl
  · simp [figs, hB] at hp
  · simp [ltrs, hF] at hp

/-- The US-TTY table meets the four checks (40_codetable.md R57). -/
theorem usTty_wf : CodeTable.wf usTty = true := by decide +kernel

end Sys2Proof.Machine
end

