-- ==== Sys2Proof/Laws/Decode.lean ====
section
/-! SUPPORT. The small lemmas of the decoder and the encoder: the fields of a word, the fields of an encoded command,
a word from its fields. -/

namespace Sys2Proof

/-- A command word as a number: OP above CP, RSV zero (30_encoding.md R45). -/
theorem commandWord_toNat (op : BitVec 8) (c : Char21) :
    (commandWord op c).toNat = op.toNat * 2 ^ 24 + c.toNat := by
  have := c.isLt
  simp only [commandWord, BitVec.toNat_append, BitVec.toNat_ofNat, Nat.shiftLeft_eq]
  rw [← Nat.shiftLeft_eq, ← Nat.shiftLeft_eq, ← Nat.shiftLeft_add_eq_or_of_lt this]
  simp [Nat.shiftLeft_eq]; omega

/-- OP of a word, as a number. -/
theorem word_op_toNat (w : Word) : (Word.op w).toNat = w.toNat / 2 ^ 24 := by
  have := w.isLt
  simp [Word.op, BitVec.extractLsb'_toNat, Nat.shiftRight_eq_div_pow]; omega

/-- RSV of a word, as a number. -/
theorem word_rsv_toNat (w : Word) : (Word.rsv w).toNat = w.toNat / 2 ^ 21 % 2 ^ 3 := by
  simp [Word.rsv, BitVec.extractLsb'_toNat, Nat.shiftRight_eq_div_pow]

/-- CP of a word, as a number. -/
theorem word_cp_toNat (w : Word) : (Word.cp w).toNat = w.toNat % 2 ^ 21 := by
  simp [Word.cp, BitVec.extractLsb'_toNat]

@[simp] theorem commandWord_op (op : BitVec 8) (c : Char21) : Word.op (commandWord op c) = op := by
  have := c.isLt
  apply BitVec.eq_of_toNat_eq; rw [word_op_toNat, commandWord_toNat]; omega

@[simp] theorem commandWord_rsv (op : BitVec 8) (c : Char21) : Word.rsv (commandWord op c) = 0 := by
  have := c.isLt
  apply BitVec.eq_of_toNat_eq; rw [word_rsv_toNat, commandWord_toNat]; simp; omega

@[simp] theorem commandWord_cp (op : BitVec 8) (c : Char21) : Word.cp (commandWord op c) = c := by
  have := c.isLt
  apply BitVec.eq_of_toNat_eq; rw [word_cp_toNat, commandWord_toNat]; omega

theorem eq_commandWord (w : Word) (h : Word.rsv w = 0) : w = commandWord (Word.op w) (Word.cp w) := by
  have h' := congrArg BitVec.toNat h
  rw [word_rsv_toNat] at h'
  apply BitVec.eq_of_toNat_eq; rw [commandWord_toNat, word_op_toNat, word_cp_toNat]
  simp at h'; omega

theorem decode_symbol_encode (v : Sym) : encode (decodeSymbol v) = .symbol v := by
  revert v; decide

end Sys2Proof
end

