-- ==== Sys2Proof/Laws/State.lean ====
section
/-! SUPPORT. One lemma for each field of State and each named update: what the field is afterwards. Later proofs cite
these instead of unfolding an update. -/

namespace Sys2Proof.Machine

variable (s : State)

/-! ### raiseFault_illegalCommand -/

@[simp] theorem raiseFault_illegalCommand_rom : (raiseFault .illegalCommand s).rom = s.rom := rfl
@[simp] theorem raiseFault_illegalCommand_maxSymbols : (raiseFault .illegalCommand s).maxSymbols = s.maxSymbols := rfl
@[simp] theorem raiseFault_illegalCommand_maxSamples : (raiseFault .illegalCommand s).maxSamples = s.maxSamples := rfl
@[simp] theorem raiseFault_illegalCommand_sampling : (raiseFault .illegalCommand s).sampling = s.sampling := rfl
@[simp] theorem raiseFault_illegalCommand_cfg : (raiseFault .illegalCommand s).cfg = s.cfg := rfl
@[simp] theorem raiseFault_illegalCommand_phase : (raiseFault .illegalCommand s).phase = s.phase := rfl
@[simp] theorem raiseFault_illegalCommand_ss : (raiseFault .illegalCommand s).ss = s.ss := rfl
@[simp] theorem raiseFault_illegalCommand_err : (raiseFault .illegalCommand s).err = s.err := rfl
@[simp] theorem raiseFault_illegalCommand_errIndex : (raiseFault .illegalCommand s).errIndex = s.errIndex := rfl
@[simp] theorem raiseFault_illegalCommand_errChar : (raiseFault .illegalCommand s).errChar = s.errChar := rfl
@[simp] theorem raiseFault_illegalCommand_result : (raiseFault .illegalCommand s).result = s.result := rfl
@[simp] theorem raiseFault_illegalCommand_cmdErr : (raiseFault .illegalCommand s).cmdErr = true := rfl
@[simp] theorem raiseFault_illegalCommand_capErr : (raiseFault .illegalCommand s).capErr = s.capErr := rfl
@[simp] theorem raiseFault_illegalCommand_charIdx : (raiseFault .illegalCommand s).charIdx = s.charIdx := rfl
@[simp] theorem raiseFault_illegalCommand_symq : (raiseFault .illegalCommand s).symq = s.symq := rfl
@[simp] theorem raiseFault_illegalCommand_warn : (raiseFault .illegalCommand s).warn = s.warn := rfl
@[simp] theorem raiseFault_illegalCommand_nTotal : (raiseFault .illegalCommand s).nTotal = s.nTotal := rfl
@[simp] theorem raiseFault_illegalCommand_nSamp : (raiseFault .illegalCommand s).nSamp = s.nSamp := rfl
@[simp] theorem raiseFault_illegalCommand_theta : (raiseFault .illegalCommand s).theta = s.theta := rfl
@[simp] theorem raiseFault_illegalCommand_outbuf : (raiseFault .illegalCommand s).outbuf = s.outbuf := rfl
@[simp] theorem raiseFault_illegalCommand_bus : (raiseFault .illegalCommand s).bus = s.bus := rfl
@[simp] theorem raiseFault_illegalCommand_schedule : (raiseFault .illegalCommand s).schedule = s.schedule := rfl

/-! ### raiseFault_capacity -/

@[simp] theorem raiseFault_capacity_rom : (raiseFault .capacity s).rom = s.rom := rfl
@[simp] theorem raiseFault_capacity_maxSymbols : (raiseFault .capacity s).maxSymbols = s.maxSymbols := rfl
@[simp] theorem raiseFault_capacity_maxSamples : (raiseFault .capacity s).maxSamples = s.maxSamples := rfl
@[simp] theorem raiseFault_capacity_sampling : (raiseFault .capacity s).sampling = s.sampling := rfl
@[simp] theorem raiseFault_capacity_cfg : (raiseFault .capacity s).cfg = s.cfg := rfl
@[simp] theorem raiseFault_capacity_phase : (raiseFault .capacity s).phase = s.phase := rfl
@[simp] theorem raiseFault_capacity_ss : (raiseFault .capacity s).ss = s.ss := rfl
@[simp] theorem raiseFault_capacity_err : (raiseFault .capacity s).err = s.err := rfl
@[simp] theorem raiseFault_capacity_errIndex : (raiseFault .capacity s).errIndex = s.errIndex := rfl
@[simp] theorem raiseFault_capacity_errChar : (raiseFault .capacity s).errChar = s.errChar := rfl
@[simp] theorem raiseFault_capacity_result : (raiseFault .capacity s).result = s.result := rfl
@[simp] theorem raiseFault_capacity_cmdErr : (raiseFault .capacity s).cmdErr = s.cmdErr := rfl
@[simp] theorem raiseFault_capacity_capErr : (raiseFault .capacity s).capErr = true := rfl
@[simp] theorem raiseFault_capacity_charIdx : (raiseFault .capacity s).charIdx = s.charIdx := rfl
@[simp] theorem raiseFault_capacity_symq : (raiseFault .capacity s).symq = s.symq := rfl
@[simp] theorem raiseFault_capacity_warn : (raiseFault .capacity s).warn = s.warn := rfl
@[simp] theorem raiseFault_capacity_nTotal : (raiseFault .capacity s).nTotal = s.nTotal := rfl
@[simp] theorem raiseFault_capacity_nSamp : (raiseFault .capacity s).nSamp = s.nSamp := rfl
@[simp] theorem raiseFault_capacity_theta : (raiseFault .capacity s).theta = s.theta := rfl
@[simp] theorem raiseFault_capacity_outbuf : (raiseFault .capacity s).outbuf = s.outbuf := rfl
@[simp] theorem raiseFault_capacity_bus : (raiseFault .capacity s).bus = s.bus := rfl
@[simp] theorem raiseFault_capacity_schedule : (raiseFault .capacity s).schedule = s.schedule := rfl

/-! ### loadCfg -/

@[simp] theorem loadCfg_rom (d : CfgData) : (loadCfg d s).rom = s.rom := rfl
@[simp] theorem loadCfg_maxSymbols (d : CfgData) : (loadCfg d s).maxSymbols = s.maxSymbols := rfl
@[simp] theorem loadCfg_maxSamples (d : CfgData) : (loadCfg d s).maxSamples = s.maxSamples := rfl
@[simp] theorem loadCfg_sampling (d : CfgData) : (loadCfg d s).sampling = s.sampling := rfl
@[simp] theorem loadCfg_cfg (d : CfgData) : (loadCfg d s).cfg = ⟨true, d⟩ := rfl
@[simp] theorem loadCfg_phase (d : CfgData) : (loadCfg d s).phase = s.phase := rfl
@[simp] theorem loadCfg_ss (d : CfgData) : (loadCfg d s).ss = s.ss := rfl
@[simp] theorem loadCfg_err (d : CfgData) : (loadCfg d s).err = s.err := rfl
@[simp] theorem loadCfg_errIndex (d : CfgData) : (loadCfg d s).errIndex = s.errIndex := rfl
@[simp] theorem loadCfg_errChar (d : CfgData) : (loadCfg d s).errChar = s.errChar := rfl
@[simp] theorem loadCfg_result (d : CfgData) : (loadCfg d s).result = s.result := rfl
@[simp] theorem loadCfg_cmdErr (d : CfgData) : (loadCfg d s).cmdErr = s.cmdErr := rfl
@[simp] theorem loadCfg_capErr (d : CfgData) : (loadCfg d s).capErr = s.capErr := rfl
@[simp] theorem loadCfg_charIdx (d : CfgData) : (loadCfg d s).charIdx = s.charIdx := rfl
@[simp] theorem loadCfg_symq (d : CfgData) : (loadCfg d s).symq = s.symq := rfl
@[simp] theorem loadCfg_warn (d : CfgData) : (loadCfg d s).warn = s.warn := rfl
@[simp] theorem loadCfg_nTotal (d : CfgData) : (loadCfg d s).nTotal = s.nTotal := rfl
@[simp] theorem loadCfg_nSamp (d : CfgData) : (loadCfg d s).nSamp = s.nSamp := rfl
@[simp] theorem loadCfg_theta (d : CfgData) : (loadCfg d s).theta = s.theta := rfl
@[simp] theorem loadCfg_outbuf (d : CfgData) : (loadCfg d s).outbuf = s.outbuf := rfl
@[simp] theorem loadCfg_bus (d : CfgData) : (loadCfg d s).bus = s.bus := rfl
@[simp] theorem loadCfg_schedule (d : CfgData) : (loadCfg d s).schedule = s.schedule := rfl

/-! ### openMessage -/

@[simp] theorem openMessage_rom : (openMessage s).rom = s.rom := rfl
@[simp] theorem openMessage_maxSymbols : (openMessage s).maxSymbols = s.maxSymbols := rfl
@[simp] theorem openMessage_maxSamples : (openMessage s).maxSamples = s.maxSamples := rfl
@[simp] theorem openMessage_sampling : (openMessage s).sampling = s.sampling := rfl
@[simp] theorem openMessage_cfg : (openMessage s).cfg = s.cfg := rfl
@[simp] theorem openMessage_phase : (openMessage s).phase = .accept := rfl
@[simp] theorem openMessage_ss : (openMessage s).ss = .letters := rfl
@[simp] theorem openMessage_err : (openMessage s).err = if cfgValid s.cfg then .none else .invalidConfig := rfl
@[simp] theorem openMessage_errIndex : (openMessage s).errIndex = 0 := rfl
@[simp] theorem openMessage_errChar : (openMessage s).errChar = 0 := rfl
@[simp] theorem openMessage_result : (openMessage s).result = .none := rfl
@[simp] theorem openMessage_cmdErr : (openMessage s).cmdErr = s.cmdErr := rfl
@[simp] theorem openMessage_capErr : (openMessage s).capErr = s.capErr := rfl
@[simp] theorem openMessage_charIdx : (openMessage s).charIdx = 0 := rfl
@[simp] theorem openMessage_symq : (openMessage s).symq = [] := rfl
@[simp] theorem openMessage_warn : (openMessage s).warn = [] := rfl
@[simp] theorem openMessage_nTotal : (openMessage s).nTotal = 0 := rfl
@[simp] theorem openMessage_nSamp : (openMessage s).nSamp = 0 := rfl
@[simp] theorem openMessage_theta : (openMessage s).theta = 0 := rfl
@[simp] theorem openMessage_outbuf : (openMessage s).outbuf = [] := rfl
@[simp] theorem openMessage_bus : (openMessage s).bus = s.bus := rfl
@[simp] theorem openMessage_schedule : (openMessage s).schedule = s.schedule := rfl

/-! ### countChar -/

@[simp] theorem countChar_rom : (countChar s).rom = s.rom := rfl
@[simp] theorem countChar_maxSymbols : (countChar s).maxSymbols = s.maxSymbols := rfl
@[simp] theorem countChar_maxSamples : (countChar s).maxSamples = s.maxSamples := rfl
@[simp] theorem countChar_sampling : (countChar s).sampling = s.sampling := rfl
@[simp] theorem countChar_cfg : (countChar s).cfg = s.cfg := rfl
@[simp] theorem countChar_phase : (countChar s).phase = s.phase := rfl
@[simp] theorem countChar_ss : (countChar s).ss = s.ss := rfl
@[simp] theorem countChar_err : (countChar s).err = s.err := rfl
@[simp] theorem countChar_errIndex : (countChar s).errIndex = s.errIndex := rfl
@[simp] theorem countChar_errChar : (countChar s).errChar = s.errChar := rfl
@[simp] theorem countChar_result : (countChar s).result = s.result := rfl
@[simp] theorem countChar_cmdErr : (countChar s).cmdErr = s.cmdErr := rfl
@[simp] theorem countChar_capErr : (countChar s).capErr = s.capErr := rfl
@[simp] theorem countChar_charIdx : (countChar s).charIdx = s.charIdx + 1 := rfl
@[simp] theorem countChar_symq : (countChar s).symq = s.symq := rfl
@[simp] theorem countChar_warn : (countChar s).warn = s.warn := rfl
@[simp] theorem countChar_nTotal : (countChar s).nTotal = s.nTotal := rfl
@[simp] theorem countChar_nSamp : (countChar s).nSamp = s.nSamp := rfl
@[simp] theorem countChar_theta : (countChar s).theta = s.theta := rfl
@[simp] theorem countChar_outbuf : (countChar s).outbuf = s.outbuf := rfl
@[simp] theorem countChar_bus : (countChar s).bus = s.bus := rfl
@[simp] theorem countChar_schedule : (countChar s).schedule = s.schedule := rfl

/-! ### appendWarning -/

@[simp] theorem appendWarning_rom (i : Nat) (c : Char21) : (appendWarning i c s).rom = s.rom := rfl
@[simp] theorem appendWarning_maxSymbols (i : Nat) (c : Char21) :
    (appendWarning i c s).maxSymbols =
      s.maxSymbols := rfl
@[simp] theorem appendWarning_maxSamples (i : Nat) (c : Char21) :
    (appendWarning i c s).maxSamples =
      s.maxSamples := rfl
@[simp] theorem appendWarning_sampling (i : Nat) (c : Char21) :
    (appendWarning i c s).sampling =
      s.sampling := rfl
@[simp] theorem appendWarning_cfg (i : Nat) (c : Char21) : (appendWarning i c s).cfg = s.cfg := rfl
@[simp] theorem appendWarning_phase (i : Nat) (c : Char21) : (appendWarning i c s).phase = s.phase := rfl
@[simp] theorem appendWarning_ss (i : Nat) (c : Char21) : (appendWarning i c s).ss = s.ss := rfl
@[simp] theorem appendWarning_err (i : Nat) (c : Char21) : (appendWarning i c s).err = s.err := rfl
@[simp] theorem appendWarning_errIndex (i : Nat) (c : Char21) : (appendWarning i c s).errIndex = s.errIndex := rfl
@[simp] theorem appendWarning_errChar (i : Nat) (c : Char21) : (appendWarning i c s).errChar = s.errChar := rfl
@[simp] theorem appendWarning_result (i : Nat) (c : Char21) : (appendWarning i c s).result = s.result := rfl
@[simp] theorem appendWarning_cmdErr (i : Nat) (c : Char21) : (appendWarning i c s).cmdErr = s.cmdErr := rfl
@[simp] theorem appendWarning_capErr (i : Nat) (c : Char21) : (appendWarning i c s).capErr = s.capErr := rfl
@[simp] theorem appendWarning_charIdx (i : Nat) (c : Char21) : (appendWarning i c s).charIdx = s.charIdx := rfl
@[simp] theorem appendWarning_symq (i : Nat) (c : Char21) : (appendWarning i c s).symq = s.symq := rfl
@[simp] theorem appendWarning_warn (i : Nat) (c : Char21) : (appendWarning i c s).warn = s.warn ++ [⟨i, c⟩] := rfl
@[simp] theorem appendWarning_nTotal (i : Nat) (c : Char21) : (appendWarning i c s).nTotal = s.nTotal := rfl
@[simp] theorem appendWarning_nSamp (i : Nat) (c : Char21) : (appendWarning i c s).nSamp = s.nSamp := rfl
@[simp] theorem appendWarning_theta (i : Nat) (c : Char21) : (appendWarning i c s).theta = s.theta := rfl
@[simp] theorem appendWarning_outbuf (i : Nat) (c : Char21) : (appendWarning i c s).outbuf = s.outbuf := rfl
@[simp] theorem appendWarning_bus (i : Nat) (c : Char21) : (appendWarning i c s).bus = s.bus := rfl
@[simp] theorem appendWarning_schedule (i : Nat) (c : Char21) : (appendWarning i c s).schedule = s.schedule := rfl

/-! ### latchUnsupported -/

@[simp] theorem latchUnsupported_rom (i : Nat) (c : Char21) : (latchUnsupported i c s).rom = s.rom := rfl
@[simp] theorem latchUnsupported_maxSymbols (i : Nat) (c : Char21) :
    (latchUnsupported i c s).maxSymbols =
      s.maxSymbols := rfl
@[simp] theorem latchUnsupported_maxSamples (i : Nat) (c : Char21) :
    (latchUnsupported i c s).maxSamples =
      s.maxSamples := rfl
@[simp] theorem latchUnsupported_sampling (i : Nat) (c : Char21) :
    (latchUnsupported i c s).sampling =
      s.sampling := rfl
@[simp] theorem latchUnsupported_cfg (i : Nat) (c : Char21) : (latchUnsupported i c s).cfg = s.cfg := rfl
@[simp] theorem latchUnsupported_phase (i : Nat) (c : Char21) : (latchUnsupported i c s).phase = s.phase := rfl
@[simp] theorem latchUnsupported_ss (i : Nat) (c : Char21) : (latchUnsupported i c s).ss = s.ss := rfl
@[simp] theorem latchUnsupported_err (i : Nat) (c : Char21) :
    (latchUnsupported i c s).err =
      .unsupportedCharacter := rfl
@[simp] theorem latchUnsupported_errIndex (i : Nat) (c : Char21) : (latchUnsupported i c s).errIndex = i := rfl
@[simp] theorem latchUnsupported_errChar (i : Nat) (c : Char21) : (latchUnsupported i c s).errChar = c := rfl
@[simp] theorem latchUnsupported_result (i : Nat) (c : Char21) : (latchUnsupported i c s).result = s.result := rfl
@[simp] theorem latchUnsupported_cmdErr (i : Nat) (c : Char21) : (latchUnsupported i c s).cmdErr = s.cmdErr := rfl
@[simp] theorem latchUnsupported_capErr (i : Nat) (c : Char21) : (latchUnsupported i c s).capErr = s.capErr := rfl
@[simp] theorem latchUnsupported_charIdx (i : Nat) (c : Char21) : (latchUnsupported i c s).charIdx = s.charIdx := rfl
@[simp] theorem latchUnsupported_symq (i : Nat) (c : Char21) : (latchUnsupported i c s).symq = s.symq := rfl
@[simp] theorem latchUnsupported_warn (i : Nat) (c : Char21) : (latchUnsupported i c s).warn = s.warn := rfl
@[simp] theorem latchUnsupported_nTotal (i : Nat) (c : Char21) : (latchUnsupported i c s).nTotal = s.nTotal := rfl
@[simp] theorem latchUnsupported_nSamp (i : Nat) (c : Char21) : (latchUnsupported i c s).nSamp = s.nSamp := rfl
@[simp] theorem latchUnsupported_theta (i : Nat) (c : Char21) : (latchUnsupported i c s).theta = s.theta := rfl
@[simp] theorem latchUnsupported_outbuf (i : Nat) (c : Char21) : (latchUnsupported i c s).outbuf = s.outbuf := rfl
@[simp] theorem latchUnsupported_bus (i : Nat) (c : Char21) : (latchUnsupported i c s).bus = s.bus := rfl
@[simp] theorem latchUnsupported_schedule (i : Nat) (c : Char21) :
    (latchUnsupported i c s).schedule =
      s.schedule := rfl

/-! ### appendSymbols -/

@[simp] theorem appendSymbols_rom (out : List Sym) (x : ShiftState) : (appendSymbols out x s).rom = s.rom := rfl
@[simp] theorem appendSymbols_maxSymbols (out : List Sym) (x : ShiftState) :
    (appendSymbols out x s).maxSymbols =
      s.maxSymbols := rfl
@[simp] theorem appendSymbols_maxSamples (out : List Sym) (x : ShiftState) :
    (appendSymbols out x s).maxSamples =
      s.maxSamples := rfl
@[simp] theorem appendSymbols_sampling (out : List Sym) (x : ShiftState) :
    (appendSymbols out x s).sampling =
      s.sampling := rfl
@[simp] theorem appendSymbols_cfg (out : List Sym) (x : ShiftState) : (appendSymbols out x s).cfg = s.cfg := rfl
@[simp] theorem appendSymbols_phase (out : List Sym) (x : ShiftState) : (appendSymbols out x s).phase = s.phase := rfl
@[simp] theorem appendSymbols_ss (out : List Sym) (x : ShiftState) : (appendSymbols out x s).ss = x := rfl
@[simp] theorem appendSymbols_err (out : List Sym) (x : ShiftState) : (appendSymbols out x s).err = s.err := rfl
@[simp] theorem appendSymbols_errIndex (out : List Sym) (x : ShiftState) :
    (appendSymbols out x s).errIndex =
      s.errIndex := rfl
@[simp] theorem appendSymbols_errChar (out : List Sym) (x : ShiftState) :
    (appendSymbols out x s).errChar =
      s.errChar := rfl
@[simp] theorem appendSymbols_result (out : List Sym) (x : ShiftState) :
    (appendSymbols out x s).result =
      s.result := rfl
@[simp] theorem appendSymbols_cmdErr (out : List Sym) (x : ShiftState) :
    (appendSymbols out x s).cmdErr =
      s.cmdErr := rfl
@[simp] theorem appendSymbols_capErr (out : List Sym) (x : ShiftState) :
    (appendSymbols out x s).capErr =
      s.capErr := rfl
@[simp] theorem appendSymbols_charIdx (out : List Sym) (x : ShiftState) :
    (appendSymbols out x s).charIdx =
      s.charIdx := rfl
@[simp] theorem appendSymbols_symq (out : List Sym) (x : ShiftState) :
    (appendSymbols out x s).symq =
      s.symq ++ out := rfl
@[simp] theorem appendSymbols_warn (out : List Sym) (x : ShiftState) : (appendSymbols out x s).warn = s.warn := rfl
@[simp] theorem appendSymbols_nTotal (out : List Sym) (x : ShiftState) :
    (appendSymbols out x s).nTotal =
      s.nTotal := rfl
@[simp] theorem appendSymbols_nSamp (out : List Sym) (x : ShiftState) : (appendSymbols out x s).nSamp = s.nSamp := rfl
@[simp] theorem appendSymbols_theta (out : List Sym) (x : ShiftState) : (appendSymbols out x s).theta = s.theta := rfl
@[simp] theorem appendSymbols_outbuf (out : List Sym) (x : ShiftState) :
    (appendSymbols out x s).outbuf =
      s.outbuf := rfl
@[simp] theorem appendSymbols_bus (out : List Sym) (x : ShiftState) : (appendSymbols out x s).bus = s.bus := rfl
@[simp] theorem appendSymbols_schedule (out : List Sym) (x : ShiftState) :
    (appendSymbols out x s).schedule =
      s.schedule := rfl

/-! ### closeFailed -/

@[simp] theorem closeFailed_rom : (closeFailed s).rom = s.rom := rfl
@[simp] theorem closeFailed_maxSymbols : (closeFailed s).maxSymbols = s.maxSymbols := rfl
@[simp] theorem closeFailed_maxSamples : (closeFailed s).maxSamples = s.maxSamples := rfl
@[simp] theorem closeFailed_sampling : (closeFailed s).sampling = s.sampling := rfl
@[simp] theorem closeFailed_cfg : (closeFailed s).cfg = s.cfg := rfl
@[simp] theorem closeFailed_phase : (closeFailed s).phase = .done := rfl
@[simp] theorem closeFailed_ss : (closeFailed s).ss = s.ss := rfl
@[simp] theorem closeFailed_err : (closeFailed s).err = s.err := rfl
@[simp] theorem closeFailed_errIndex : (closeFailed s).errIndex = s.errIndex := rfl
@[simp] theorem closeFailed_errChar : (closeFailed s).errChar = s.errChar := rfl
@[simp] theorem closeFailed_result : (closeFailed s).result = s.err.toResult := rfl
@[simp] theorem closeFailed_cmdErr : (closeFailed s).cmdErr = s.cmdErr := rfl
@[simp] theorem closeFailed_capErr : (closeFailed s).capErr = s.capErr := rfl
@[simp] theorem closeFailed_charIdx : (closeFailed s).charIdx = s.charIdx := rfl
@[simp] theorem closeFailed_symq : (closeFailed s).symq = [] := rfl
@[simp] theorem closeFailed_warn : (closeFailed s).warn = s.warn := rfl
@[simp] theorem closeFailed_nTotal : (closeFailed s).nTotal = s.nTotal := rfl
@[simp] theorem closeFailed_nSamp : (closeFailed s).nSamp = s.nSamp := rfl
@[simp] theorem closeFailed_theta : (closeFailed s).theta = s.theta := rfl
@[simp] theorem closeFailed_outbuf : (closeFailed s).outbuf = s.outbuf := rfl
@[simp] theorem closeFailed_bus : (closeFailed s).bus = s.bus := rfl
@[simp] theorem closeFailed_schedule : (closeFailed s).schedule = s.schedule := rfl

/-! ### startSynth -/

@[simp] theorem startSynth_rom (N : Nat) : (startSynth N s).rom = s.rom := rfl
@[simp] theorem startSynth_maxSymbols (N : Nat) : (startSynth N s).maxSymbols = s.maxSymbols := rfl
@[simp] theorem startSynth_maxSamples (N : Nat) : (startSynth N s).maxSamples = s.maxSamples := rfl
@[simp] theorem startSynth_sampling (N : Nat) : (startSynth N s).sampling = s.sampling := rfl
@[simp] theorem startSynth_cfg (N : Nat) : (startSynth N s).cfg = s.cfg := rfl
@[simp] theorem startSynth_phase (N : Nat) : (startSynth N s).phase = .synth := rfl
@[simp] theorem startSynth_ss (N : Nat) : (startSynth N s).ss = s.ss := rfl
@[simp] theorem startSynth_err (N : Nat) : (startSynth N s).err = s.err := rfl
@[simp] theorem startSynth_errIndex (N : Nat) : (startSynth N s).errIndex = s.errIndex := rfl
@[simp] theorem startSynth_errChar (N : Nat) : (startSynth N s).errChar = s.errChar := rfl
@[simp] theorem startSynth_result (N : Nat) : (startSynth N s).result = s.result := rfl
@[simp] theorem startSynth_cmdErr (N : Nat) : (startSynth N s).cmdErr = s.cmdErr := rfl
@[simp] theorem startSynth_capErr (N : Nat) : (startSynth N s).capErr = s.capErr := rfl
@[simp] theorem startSynth_charIdx (N : Nat) : (startSynth N s).charIdx = s.charIdx := rfl
@[simp] theorem startSynth_symq (N : Nat) : (startSynth N s).symq = s.symq := rfl
@[simp] theorem startSynth_warn (N : Nat) : (startSynth N s).warn = s.warn := rfl
@[simp] theorem startSynth_nTotal (N : Nat) : (startSynth N s).nTotal = N := rfl
@[simp] theorem startSynth_nSamp (N : Nat) : (startSynth N s).nSamp = 0 := rfl
@[simp] theorem startSynth_theta (N : Nat) : (startSynth N s).theta = s.theta := rfl
@[simp] theorem startSynth_outbuf (N : Nat) : (startSynth N s).outbuf = s.outbuf := rfl
@[simp] theorem startSynth_bus (N : Nat) : (startSynth N s).bus = s.bus := rfl
@[simp] theorem startSynth_schedule (N : Nat) : (startSynth N s).schedule = s.schedule := rfl

/-! ### finishMessage -/

@[simp] theorem finishMessage_rom : (finishMessage s).rom = s.rom := rfl
@[simp] theorem finishMessage_maxSymbols : (finishMessage s).maxSymbols = s.maxSymbols := rfl
@[simp] theorem finishMessage_maxSamples : (finishMessage s).maxSamples = s.maxSamples := rfl
@[simp] theorem finishMessage_sampling : (finishMessage s).sampling = s.sampling := rfl
@[simp] theorem finishMessage_cfg : (finishMessage s).cfg = s.cfg := rfl
@[simp] theorem finishMessage_phase : (finishMessage s).phase = .done := rfl
@[simp] theorem finishMessage_ss : (finishMessage s).ss = s.ss := rfl
@[simp] theorem finishMessage_err : (finishMessage s).err = s.err := rfl
@[simp] theorem finishMessage_errIndex : (finishMessage s).errIndex = s.errIndex := rfl
@[simp] theorem finishMessage_errChar : (finishMessage s).errChar = s.errChar := rfl
@[simp] theorem finishMessage_result : (finishMessage s).result = .ok := rfl
@[simp] theorem finishMessage_cmdErr : (finishMessage s).cmdErr = s.cmdErr := rfl
@[simp] theorem finishMessage_capErr : (finishMessage s).capErr = s.capErr := rfl
@[simp] theorem finishMessage_charIdx : (finishMessage s).charIdx = s.charIdx := rfl
@[simp] theorem finishMessage_symq : (finishMessage s).symq = s.symq := rfl
@[simp] theorem finishMessage_warn : (finishMessage s).warn = s.warn := rfl
@[simp] theorem finishMessage_nTotal : (finishMessage s).nTotal = s.nTotal := rfl
@[simp] theorem finishMessage_nSamp : (finishMessage s).nSamp = s.nSamp := rfl
@[simp] theorem finishMessage_theta : (finishMessage s).theta = s.theta := rfl
@[simp] theorem finishMessage_outbuf : (finishMessage s).outbuf = s.outbuf := rfl
@[simp] theorem finishMessage_bus : (finishMessage s).bus = s.bus := rfl
@[simp] theorem finishMessage_schedule : (finishMessage s).schedule = s.schedule := rfl

/-! ### emitSample -/

@[simp] theorem emitSample_rom (t : Tone) : (emitSample t s).rom = s.rom := rfl
@[simp] theorem emitSample_maxSymbols (t : Tone) : (emitSample t s).maxSymbols = s.maxSymbols := rfl
@[simp] theorem emitSample_maxSamples (t : Tone) : (emitSample t s).maxSamples = s.maxSamples := rfl
@[simp] theorem emitSample_sampling (t : Tone) : (emitSample t s).sampling = s.sampling := rfl
@[simp] theorem emitSample_cfg (t : Tone) : (emitSample t s).cfg = s.cfg := rfl
@[simp] theorem emitSample_phase (t : Tone) : (emitSample t s).phase = s.phase := rfl
@[simp] theorem emitSample_ss (t : Tone) : (emitSample t s).ss = s.ss := rfl
@[simp] theorem emitSample_err (t : Tone) : (emitSample t s).err = s.err := rfl
@[simp] theorem emitSample_errIndex (t : Tone) : (emitSample t s).errIndex = s.errIndex := rfl
@[simp] theorem emitSample_errChar (t : Tone) : (emitSample t s).errChar = s.errChar := rfl
@[simp] theorem emitSample_result (t : Tone) : (emitSample t s).result = s.result := rfl
@[simp] theorem emitSample_cmdErr (t : Tone) : (emitSample t s).cmdErr = s.cmdErr := rfl
@[simp] theorem emitSample_capErr (t : Tone) : (emitSample t s).capErr = s.capErr := rfl
@[simp] theorem emitSample_charIdx (t : Tone) : (emitSample t s).charIdx = s.charIdx := rfl
@[simp] theorem emitSample_symq (t : Tone) : (emitSample t s).symq = s.symq := rfl
@[simp] theorem emitSample_warn (t : Tone) : (emitSample t s).warn = s.warn := rfl
@[simp] theorem emitSample_nTotal (t : Tone) : (emitSample t s).nTotal = s.nTotal := rfl
@[simp] theorem emitSample_nSamp (t : Tone) : (emitSample t s).nSamp = s.nSamp + 1 := rfl
@[simp] theorem emitSample_theta (t : Tone) : (emitSample t s).theta = advancePhase s.cfg.data t s.theta := rfl
@[simp] theorem emitSample_outbuf (t : Tone) :
    (emitSample t s).outbuf =
      s.outbuf ++ [conv s.cfg.data.outputFormat (sampleFn s.sampling s.cfg.data.amplitude s.theta)] := rfl
@[simp] theorem emitSample_bus (t : Tone) : (emitSample t s).bus = s.bus := rfl
@[simp] theorem emitSample_schedule (t : Tone) : (emitSample t s).schedule = s.schedule := rfl

/-! ### applyReset -/

@[simp] theorem applyReset_rom (d : CfgData) : (applyReset d s).rom = s.rom := rfl
@[simp] theorem applyReset_maxSymbols (d : CfgData) : (applyReset d s).maxSymbols = s.maxSymbols := rfl
@[simp] theorem applyReset_maxSamples (d : CfgData) : (applyReset d s).maxSamples = s.maxSamples := rfl
@[simp] theorem applyReset_sampling (d : CfgData) : (applyReset d s).sampling = s.sampling := rfl
@[simp] theorem applyReset_cfg (d : CfgData) : (applyReset d s).cfg = ⟨false, d⟩ := rfl
@[simp] theorem applyReset_phase (d : CfgData) : (applyReset d s).phase = .idle := rfl
@[simp] theorem applyReset_ss (d : CfgData) : (applyReset d s).ss = .letters := rfl
@[simp] theorem applyReset_err (d : CfgData) : (applyReset d s).err = .none := rfl
@[simp] theorem applyReset_errIndex (d : CfgData) : (applyReset d s).errIndex = 0 := rfl
@[simp] theorem applyReset_errChar (d : CfgData) : (applyReset d s).errChar = 0 := rfl
@[simp] theorem applyReset_result (d : CfgData) : (applyReset d s).result = .none := rfl
@[simp] theorem applyReset_cmdErr (d : CfgData) : (applyReset d s).cmdErr = false := rfl
@[simp] theorem applyReset_capErr (d : CfgData) : (applyReset d s).capErr = false := rfl
@[simp] theorem applyReset_charIdx (d : CfgData) : (applyReset d s).charIdx = 0 := rfl
@[simp] theorem applyReset_symq (d : CfgData) : (applyReset d s).symq = [] := rfl
@[simp] theorem applyReset_warn (d : CfgData) : (applyReset d s).warn = [] := rfl
@[simp] theorem applyReset_nTotal (d : CfgData) : (applyReset d s).nTotal = 0 := rfl
@[simp] theorem applyReset_nSamp (d : CfgData) : (applyReset d s).nSamp = 0 := rfl
@[simp] theorem applyReset_theta (d : CfgData) : (applyReset d s).theta = 0 := rfl
@[simp] theorem applyReset_outbuf (d : CfgData) : (applyReset d s).outbuf = [] := rfl
@[simp] theorem applyReset_bus (d : CfgData) : (applyReset d s).bus = s.bus := rfl
@[simp] theorem applyReset_schedule (d : CfgData) : (applyReset d s).schedule = s.schedule := rfl

/-! ### takeEvent -/

@[simp] theorem takeEvent_rom (rest : List Event) : (takeEvent rest s).rom = s.rom := rfl
@[simp] theorem takeEvent_maxSymbols (rest : List Event) : (takeEvent rest s).maxSymbols = s.maxSymbols := rfl
@[simp] theorem takeEvent_maxSamples (rest : List Event) : (takeEvent rest s).maxSamples = s.maxSamples := rfl
@[simp] theorem takeEvent_sampling (rest : List Event) : (takeEvent rest s).sampling = s.sampling := rfl
@[simp] theorem takeEvent_cfg (rest : List Event) : (takeEvent rest s).cfg = s.cfg := rfl
@[simp] theorem takeEvent_phase (rest : List Event) : (takeEvent rest s).phase = s.phase := rfl
@[simp] theorem takeEvent_ss (rest : List Event) : (takeEvent rest s).ss = s.ss := rfl
@[simp] theorem takeEvent_err (rest : List Event) : (takeEvent rest s).err = s.err := rfl
@[simp] theorem takeEvent_errIndex (rest : List Event) : (takeEvent rest s).errIndex = s.errIndex := rfl
@[simp] theorem takeEvent_errChar (rest : List Event) : (takeEvent rest s).errChar = s.errChar := rfl
@[simp] theorem takeEvent_result (rest : List Event) : (takeEvent rest s).result = s.result := rfl
@[simp] theorem takeEvent_cmdErr (rest : List Event) : (takeEvent rest s).cmdErr = s.cmdErr := rfl
@[simp] theorem takeEvent_capErr (rest : List Event) : (takeEvent rest s).capErr = s.capErr := rfl
@[simp] theorem takeEvent_charIdx (rest : List Event) : (takeEvent rest s).charIdx = s.charIdx := rfl
@[simp] theorem takeEvent_symq (rest : List Event) : (takeEvent rest s).symq = s.symq := rfl
@[simp] theorem takeEvent_warn (rest : List Event) : (takeEvent rest s).warn = s.warn := rfl
@[simp] theorem takeEvent_nTotal (rest : List Event) : (takeEvent rest s).nTotal = s.nTotal := rfl
@[simp] theorem takeEvent_nSamp (rest : List Event) : (takeEvent rest s).nSamp = s.nSamp := rfl
@[simp] theorem takeEvent_theta (rest : List Event) : (takeEvent rest s).theta = s.theta := rfl
@[simp] theorem takeEvent_outbuf (rest : List Event) : (takeEvent rest s).outbuf = s.outbuf := rfl
@[simp] theorem takeEvent_bus (rest : List Event) : (takeEvent rest s).bus = s.bus := rfl
@[simp] theorem takeEvent_schedule (rest : List Event) : (takeEvent rest s).schedule = rest := rfl

/-! ### takeCommand -/

@[simp] theorem takeCommand_rom (d : CfgData) (rest : List Event) : (takeCommand d rest s).rom = s.rom := rfl
@[simp] theorem takeCommand_maxSymbols (d : CfgData) (rest : List Event) :
    (takeCommand d rest s).maxSymbols =
      s.maxSymbols := rfl
@[simp] theorem takeCommand_maxSamples (d : CfgData) (rest : List Event) :
    (takeCommand d rest s).maxSamples =
      s.maxSamples := rfl
@[simp] theorem takeCommand_sampling (d : CfgData) (rest : List Event) :
    (takeCommand d rest s).sampling =
      s.sampling := rfl
@[simp] theorem takeCommand_cfg (d : CfgData) (rest : List Event) : (takeCommand d rest s).cfg = s.cfg := rfl
@[simp] theorem takeCommand_phase (d : CfgData) (rest : List Event) : (takeCommand d rest s).phase = s.phase := rfl
@[simp] theorem takeCommand_ss (d : CfgData) (rest : List Event) : (takeCommand d rest s).ss = s.ss := rfl
@[simp] theorem takeCommand_err (d : CfgData) (rest : List Event) : (takeCommand d rest s).err = s.err := rfl
@[simp] theorem takeCommand_errIndex (d : CfgData) (rest : List Event) :
    (takeCommand d rest s).errIndex =
      s.errIndex := rfl
@[simp] theorem takeCommand_errChar (d : CfgData) (rest : List Event) :
    (takeCommand d rest s).errChar =
      s.errChar := rfl
@[simp] theorem takeCommand_result (d : CfgData) (rest : List Event) : (takeCommand d rest s).result = s.result := rfl
@[simp] theorem takeCommand_cmdErr (d : CfgData) (rest : List Event) : (takeCommand d rest s).cmdErr = s.cmdErr := rfl
@[simp] theorem takeCommand_capErr (d : CfgData) (rest : List Event) : (takeCommand d rest s).capErr = s.capErr := rfl
@[simp] theorem takeCommand_charIdx (d : CfgData) (rest : List Event) :
    (takeCommand d rest s).charIdx =
      s.charIdx := rfl
@[simp] theorem takeCommand_symq (d : CfgData) (rest : List Event) : (takeCommand d rest s).symq = s.symq := rfl
@[simp] theorem takeCommand_warn (d : CfgData) (rest : List Event) : (takeCommand d rest s).warn = s.warn := rfl
@[simp] theorem takeCommand_nTotal (d : CfgData) (rest : List Event) : (takeCommand d rest s).nTotal = s.nTotal := rfl
@[simp] theorem takeCommand_nSamp (d : CfgData) (rest : List Event) : (takeCommand d rest s).nSamp = s.nSamp := rfl
@[simp] theorem takeCommand_theta (d : CfgData) (rest : List Event) : (takeCommand d rest s).theta = s.theta := rfl
@[simp] theorem takeCommand_outbuf (d : CfgData) (rest : List Event) : (takeCommand d rest s).outbuf = s.outbuf := rfl
@[simp] theorem takeCommand_bus (d : CfgData) (rest : List Event) : (takeCommand d rest s).bus = d := rfl
@[simp] theorem takeCommand_schedule (d : CfgData) (rest : List Event) : (takeCommand d rest s).schedule = rest := rfl

end Sys2Proof.Machine
end

