-- ==== Sys2Proof/Laws/Timing.lean ====
section
/-! SUPPORT. Frames, boundaries and the element of a sample: what the later proofs cite instead of unfolding them. -/

namespace Sys2Proof.Machine

/-- What a legal configuration gives (43_encoder.md R118), field by field. -/
theorem cfgValid_data {c : CfgReg} (h : cfgValid c = true) :
    0 < c.data.baudRate ∧ 0 < c.data.sampleRate ∧ 1 ≤ c.data.stopBitMultiplier := by
  simp only [cfgValid, Bool.and_eq_true, decide_eq_true_eq] at h
  exact ⟨h.1.1.1.1.1.1.1.2, h.1.1.1.1.1.1.2, h.1.1.2⟩

@[simp] theorem frame_length (v : Sym) (M : Rat) : (frame v M).length = 7 := rfl

@[simp] theorem elements_nil (M : Rat) : elements [] M = [] := rfl

@[simp] theorem elements_cons (v : Sym) (q : List Sym) (M : Rat) :
    elements (v :: q) M = frame v M ++ elements q M := rfl

theorem elements_length (q : List Sym) (M : Rat) : (elements q M).length = 7 * q.length := by
  induction q with
  | nil => rfl
  | cons v q ih => simp [ih]; omega

/-- Element k is position k % 7 of frame k / 7 (41_framer.md R97). -/
theorem elements_get? (q : List Sym) (M : Rat) (k : Nat) :
    (elements q M)[k]? = (q[k / 7]?).bind fun v => (frame v M)[k % 7]? := by
  induction q generalizing k with
  | nil => simp
  | cons v q ih =>
    rw [elements_cons]
    by_cases hk : k < 7
    · rw [List.getElem?_append_left (by simpa using hk), Nat.div_eq_of_lt hk, Nat.mod_eq_of_lt hk]
      simp
    · obtain ⟨j, rfl⟩ : ∃ j, k = j + 7 := ⟨k - 7, by omega⟩
      rw [List.getElem?_append_right (by simp), frame_length, Nat.add_sub_cancel, ih,
        Nat.add_div_right _ (by norm_num), Nat.add_mod_right]
      simp

/-- Position i of a frame: its tone, and its width 1, or M for the stop element (41_framer.md R97). -/
theorem frame_get? (v : Sym) (M : Rat) {i : Nat} (h : i < 7) :
    (frame v M)[i]? = some ⟨frameTone v i, if i = 6 then M else 1⟩ := by
  interval_cases i <;> rfl

@[simp] theorem startTime_zero (M : Rat) : startTime M 0 = 0 := by simp [startTime]

/-- D_{k+1} = D_k + w_k (42_synthesizer.md R104). -/
theorem startTime_succ (M : Rat) (k : Nat) :
    startTime M (k + 1) = startTime M k + if k % 7 = 6 then M else 1 := by
  unfold startTime
  split_ifs with h
  · have h1 : (k + 1) / 7 = k / 7 + 1 := by omega
    have h2 : (k + 1) % 7 = 0 := by omega
    rw [h1, h2, h]
    push_cast
    ring
  · have h1 : (k + 1) / 7 = k / 7 := by omega
    have h2 : (k + 1) % 7 = k % 7 + 1 := by omega
    rw [h1, h2]
    push_cast
    ring

theorem startTime_mul_seven (M : Rat) (j : Nat) : startTime M (7 * j) = (j : Rat) * (6 + M) := by
  have h1 : 7 * j / 7 = j := by omega
  have h2 : 7 * j % 7 = 0 := by omega
  rw [startTime, h1, h2]
  simp

theorem startTime_nonneg {M : Rat} (hM : 1 ≤ M) (k : Nat) : 0 ≤ startTime M k := by
  unfold startTime
  have : (0 : Rat) ≤ 6 + M := by linarith
  positivity

theorem startTime_le_succ {M : Rat} (hM : 1 ≤ M) (k : Nat) : startTime M k ≤ startTime M (k + 1) := by
  rw [startTime_succ]
  split_ifs <;> linarith

/-- The exact sample time of a boundary is not negative under a legal configuration. -/
theorem exactTime_nonneg {c : CfgData} (h : cfgValid ⟨true, c⟩ = true) (k : Nat) :
    0 ≤ startTime c.stopBitMultiplier k * c.sampleRate / c.baudRate := by
  obtain ⟨hb, hs, hM⟩ := cfgValid_data h
  exact div_nonneg (mul_nonneg (startTime_nonneg hM k) hs.le) hb.le

/-- B_k as an integer: no boundary of a legal configuration is cut off at 0. -/
theorem boundary_cast {c : CfgData} (h : cfgValid ⟨true, c⟩ = true) (k : Nat) :
    (boundary c k : Int) = roundHalfUp (startTime c.stopBitMultiplier k * c.sampleRate / c.baudRate) :=
  Int.toNat_of_nonneg (roundHalfUp_nonneg (exactTime_nonneg h k))

@[simp] theorem boundary_zero (c : CfgData) : boundary c 0 = 0 := by
  have h : roundHalfUp 0 = 0 := by decide +kernel
  simp [boundary, h]

theorem boundary_le_succ {c : CfgData} (h : cfgValid ⟨true, c⟩ = true) (k : Nat) :
    boundary c k ≤ boundary c (k + 1) := by
  obtain ⟨hb, hs, hM⟩ := cfgValid_data h
  refine Int.toNat_le_toNat (roundHalfUp_mono ?_)
  exact div_le_div_of_nonneg_right (mul_le_mul_of_nonneg_right (startTime_le_succ hM k) hs.le) hb.le

/-- "B is non-decreasing" (42_synthesizer.md R106). -/
theorem boundary_mono {c : CfgData} (h : cfgValid ⟨true, c⟩ = true) : Monotone (boundary c) :=
  monotone_nat_of_le_succ (boundary_le_succ h)

theorem elemOf_some {c : CfgData} {E n k : Nat} (h : elemOf c E n = some k) :
    k < E ∧ boundary c k ≤ n ∧ n < boundary c (k + 1) := by
  have h1 := List.find?_some h
  have h2 := List.mem_of_find?_eq_some h
  simp only [Bool.and_eq_true, decide_eq_true_eq, List.mem_range] at h1 h2
  exact ⟨h2, h1⟩

/-- No two elements share a sample (42_synthesizer.md R106). -/
theorem element_unique {c : CfgData} (h : cfgValid ⟨true, c⟩ = true) {k k' n : Nat}
    (h1 : boundary c k ≤ n) (h2 : n < boundary c (k + 1)) (h1' : boundary c k' ≤ n) (h2' : n < boundary c (k' + 1)) :
    k = k' := by
  rcases Nat.lt_trichotomy k k' with hk | hk | hk
  · have := boundary_mono h (show k + 1 ≤ k' by omega)
    omega
  · exact hk
  · have := boundary_mono h (show k' + 1 ≤ k by omega)
    omega

/-- `elemOf` finds the element of a sample. -/
theorem elemOf_eq {c : CfgData} (h : cfgValid ⟨true, c⟩ = true) {E n k : Nat} (hk : k < E)
    (h1 : boundary c k ≤ n) (h2 : n < boundary c (k + 1)) : elemOf c E n = some k := by
  cases he : elemOf c E n with
  | some k' =>
    obtain ⟨-, h1', h2'⟩ := elemOf_some he
    rw [element_unique h h1' h2' h1 h2]
  | none =>
    rw [elemOf, List.find?_eq_none] at he
    exact absurd (by simp [h1, h2]) (he k (by simpa using hk))

/-- A sample before B_E lies in one of the first E elements. -/
theorem exists_element (c : CfgData) {E n : Nat} (hn : n < boundary c E) :
    ∃ k, k < E ∧ boundary c k ≤ n ∧ n < boundary c (k + 1) := by
  induction E with
  | zero => simp at hn
  | succ E ih =>
    by_cases h : n < boundary c E
    · obtain ⟨k, hk, h1, h2⟩ := ih h
      exact ⟨k, by omega, h1, h2⟩
    · exact ⟨E, by omega, by omega, hn⟩

/-- Every sample of a message has an element, so it has a tone. -/
theorem elemOf_isSome {c : CfgData} (h : cfgValid ⟨true, c⟩ = true) {F n : Nat} (hn : n < messageSamples c F) :
    ∃ k, elemOf c (7 * F) n = some k ∧ k < 7 * F := by
  obtain ⟨k, hk, h1, h2⟩ := exists_element c hn
  exact ⟨k, elemOf_eq h hk h1 h2, hk⟩

/-- The current element is that of sample NSAMP of a message in synthesis (10_state.md R31). -/
theorem currentElement_some {s : State} {k : Nat} (h : s.currentElement = some k) :
    s.phase = .synth ∧ s.nSamp < s.nTotal ∧ elemOf s.cfg.data (7 * s.symq.length) s.nSamp = some k := by
  unfold State.currentElement at h
  split_ifs at h with hc
  exact ⟨hc.1, hc.2, h⟩

theorem onLine_some {s : State} {v : Sym} (h : s.onLine = some v) :
    ∃ k, s.currentElement = some k ∧ s.symq[k / 7]? = some v := by
  unfold State.onLine State.currentFrame at h
  cases hk : s.currentElement with
  | none => simp [hk] at h
  | some k => exact ⟨k, rfl, by simpa [hk] using h⟩

/-- The tone of sample NSAMP is the one the symbol on the line gives it. -/
theorem toneAt_of_currentElement {s : State} {k : Nat} {v : Sym} (h : s.currentElement = some k)
    (hv : s.symq[k / 7]? = some v) : toneAt s.cfg.data s.symq s.nSamp = some (frameTone v (k % 7)) := by
  obtain ⟨-, -, he⟩ := currentElement_some h
  simp [toneAt, he, hv]

end Sys2Proof.Machine
end

