-- ==== Sys2Proof/Laws/Ops.lean ====
section
/-! SUPPORT. One lemma for each shared operation: everything it can do. -/

namespace Sys2Proof.Machine

/-- A command's outcome: its effect in a legal phase, CMDERR in the others (43_encoder.md R115). -/
theorem inPhases_next {legal : List Phase} {s t : State} {effect : State → State}
    (h : inPhases legal s effect = .next t) :
    (s.phase ∈ legal ∧ t = effect s) ∨ (s.phase ∉ legal ∧ t = raiseFault .illegalCommand s) := by
  unfold inPhases at h
  split_ifs at h with hp <;> simp only [Host.Outcome.next.injEq] at h <;> subst h <;> simp at hp <;> simp [hp]

/-- FRAME_CHAR's five cases (41_framer.md R95). -/
theorem frameChar_cases (c : Char21) (s : State) :
    (s.err ≠ .none ∧ frameChar c s = countChar s) ∨
    (s.err = .none ∧ symbolFor s.rom c = none ∧ s.cfg.data.skipUnknownChars = true ∧
      frameChar c s = appendWarning s.charIdx c (countChar s)) ∨
    (s.err = .none ∧ symbolFor s.rom c = none ∧ s.cfg.data.skipUnknownChars = false ∧
      frameChar c s = latchUnsupported s.charIdx c (countChar s)) ∨
    (∃ v req, s.err = .none ∧ symbolFor s.rom c = some (v, req) ∧
      exceeds (s.symq.length + ((shiftFor req s.ss).1 ++ [v]).length) s.maxSymbols = true ∧
      frameChar c s = raiseFault .capacity (countChar s)) ∨
    (∃ v req, s.err = .none ∧ symbolFor s.rom c = some (v, req) ∧
      exceeds (s.symq.length + ((shiftFor req s.ss).1 ++ [v]).length) s.maxSymbols = false ∧
      frameChar c s = appendSymbols ((shiftFor req s.ss).1 ++ [v]) (shiftFor req s.ss).2 (countChar s)) := by
  by_cases he : s.err = .none
  · cases hf : symbolFor s.rom c with
    | none =>
      cases hk : s.cfg.data.skipUnknownChars <;> simp [frameChar, he, hf, hk]
    | some r =>
      obtain ⟨v, req⟩ := r
      cases hx : exceeds (s.symq.length + ((shiftFor req s.ss).1 ++ [v]).length) s.maxSymbols
      · refine .inr (.inr (.inr (.inr ⟨v, req, he, rfl, hx, ?_⟩)))
        simp only [frameChar, he, hf, hx]
        simp
      · refine .inr (.inr (.inr (.inl ⟨v, req, he, rfl, hx, ?_⟩)))
        simp only [frameChar, he, hf, hx]
        simp
  · exact .inl ⟨he, by simp [frameChar, he]⟩

/-- END's three cases (43_encoder.md R121). -/
theorem closeMessage_cases (s : State) :
    (s.err ≠ .none ∧ closeMessage s = closeFailed s) ∨
    (s.err = .none ∧ exceeds (messageSamples s.cfg.data s.symq.length) s.maxSamples = true ∧
      closeMessage s = raiseFault .capacity s) ∨
    (s.err = .none ∧ exceeds (messageSamples s.cfg.data s.symq.length) s.maxSamples = false ∧
      closeMessage s = startSynth (messageSamples s.cfg.data s.symq.length) s) := by
  by_cases he : s.err = .none
  · cases hx : exceeds (messageSamples s.cfg.data s.symq.length) s.maxSamples <;> simp [closeMessage, he, hx]
  · exact .inl ⟨he, by simp [closeMessage, he]⟩

/-- The meaning of a code symbol: one sample at the current element, or not enabled (42_synthesizer.md R108). -/
theorem sendSymbol_next {v : Sym} {s t : State} (h : sendSymbol v s = .next t) :
    ∃ k, s.currentElement = some k ∧ s.symq[k / 7]? = some v ∧ t = emitSample (frameTone v (k % 7)) s := by
  unfold sendSymbol at h
  split at h
  · rename_i k hk
    split_ifs at h with hv
    simp only [Host.Outcome.next.injEq] at h
    exact ⟨k, hk, hv, h.symm⟩
  · simp at h

/-- The symbol on the line runs. -/
theorem sendSymbol_onLine {v : Sym} {s : State} {k : Nat} (hk : s.currentElement = some k)
    (hv : s.symq[k / 7]? = some v) : sendSymbol v s = .next (emitSample (frameTone v (k % 7)) s) := by
  simp [sendSymbol, hk, hv]

/-- The meaning of the symbol a value decodes to is `sendSymbol` of that value: all 32 at once. -/
theorem exec_decodeSymbol (v : Sym) (s : State) : exec (decodeSymbol v) s = sendSymbol v s := by
  have h : ∀ i v', decodeSymbol v' = i → exec i s = sendSymbol v' s := by
    intro i v' hi
    obtain ⟨n, hn⟩ := v'
    interval_cases n <;> subst hi <;> rfl
  exact h _ v rfl

/-- Every shift symbol emitted before a character matches the shift state it leaves, and nothing is emitted where the state
stays (41_framer.md R96). -/
theorem shiftFor_cases (req : ReqShift) (ss : ShiftState) :
    ((shiftFor req ss).1 = [] ∧ (shiftFor req ss).2 = ss) ∨
    ((shiftFor req ss).1 = [ltrs] ∧ (shiftFor req ss).2 = .letters ∧ ss = .figures) ∨
    ((shiftFor req ss).1 = [figs] ∧ (shiftFor req ss).2 = .figures ∧ ss = .letters) := by
  cases req <;> cases ss <;> simp [shiftFor]

end Sys2Proof.Machine
end

