-- ==== Sys2Proof/Laws/PerInstr.lean ====
section
/-! SUPPORT. For every instruction: its encoding agrees with its row of spec/opcode_table.json, and that row's bits decode to
it. One lemma for each constructor. -/

namespace Sys2Proof.Laws.EncodingMatchesRow

open Sys2Proof

/-- The row of spec/opcode_table.json: how many bits it has in whole bytes, its mask and its match. -/
def row : Instr → Nat × Nat × Nat
  | .nop => (32, 0xFFFFFFFF, 0x00000000)
  | .cfg => (32, 0xFFFFFFFF, 0x01000000)
  | .beginMsg => (32, 0xFFFFFFFF, 0x02000000)
  | .push _ => (32, 0xFFE00000, 0x03000000)
  | .endMsg => (32, 0xFFFFFFFF, 0x04000000)
  | .ita2Nul => (8, 0x1F, 0x00)
  | .ita2E3 => (8, 0x1F, 0x01)
  | .ita2Lf => (8, 0x1F, 0x02)
  | .ita2ADash => (8, 0x1F, 0x03)
  | .ita2Sp => (8, 0x1F, 0x04)
  | .ita2SBel => (8, 0x1F, 0x05)
  | .ita2I8 => (8, 0x1F, 0x06)
  | .ita2U7 => (8, 0x1F, 0x07)
  | .ita2Cr => (8, 0x1F, 0x08)
  | .ita2DDollar => (8, 0x1F, 0x09)
  | .ita2R4 => (8, 0x1F, 0x0A)
  | .ita2JApos => (8, 0x1F, 0x0B)
  | .ita2NComma => (8, 0x1F, 0x0C)
  | .ita2FBang => (8, 0x1F, 0x0D)
  | .ita2CColon => (8, 0x1F, 0x0E)
  | .ita2KParenL => (8, 0x1F, 0x0F)
  | .ita2T5 => (8, 0x1F, 0x10)
  | .ita2ZQuote => (8, 0x1F, 0x11)
  | .ita2LParenR => (8, 0x1F, 0x12)
  | .ita2W2 => (8, 0x1F, 0x13)
  | .ita2HHash => (8, 0x1F, 0x14)
  | .ita2Y6 => (8, 0x1F, 0x15)
  | .ita2P0 => (8, 0x1F, 0x16)
  | .ita2Q1 => (8, 0x1F, 0x17)
  | .ita2O9 => (8, 0x1F, 0x18)
  | .ita2BQuestion => (8, 0x1F, 0x19)
  | .ita2GAmp => (8, 0x1F, 0x1A)
  | .ita2Figs => (8, 0x1F, 0x1B)
  | .ita2MDot => (8, 0x1F, 0x1C)
  | .ita2XSlash => (8, 0x1F, 0x1D)
  | .ita2VSemi => (8, 0x1F, 0x1E)
  | .ita2Ltrs => (8, 0x1F, 0x1F)

/-- An encoded unit agrees with a mask and a match. -/
def matchesRow (mask value : Nat) : Code → Bool
  | .word w => w &&& BitVec.ofNat 32 mask == BitVec.ofNat 32 value
  | .symbol v => v &&& BitVec.ofNat 5 mask == BitVec.ofNat 5 value

/-- An encoded unit as a number, its bits numbered as the table numbers them. -/
def number : Code → Nat
  | .word w => w.toNat
  | .symbol v => v.toNat

/-- The encoding of i agrees with the mask and match of i's row, and the table's word decodes to i. -/
def Statement (i : Instr) : Prop :=
  matchesRow (row i).2.1 (row i).2.2 (encode i) = true ∧ decodeTableWord (row i).1 (number (encode i)) = some i

theorem nop : Statement .nop := ⟨by decide, by decide⟩

theorem cfg : Statement .cfg := ⟨by decide, by decide⟩

theorem beginMsg : Statement .beginMsg := ⟨by decide, by decide⟩

theorem push (c : Char21) : Statement (.push c) := by
  have hw : (commandWord 0x03#8 c).toNat < 2 ^ 32 := (commandWord 0x03#8 c).isLt
  constructor
  · show (commandWord 0x03#8 c &&& 0xFFE00000#32 == 0x03000000#32) = true
    rw [beq_iff_eq]
    refine BitVec.eq_of_getLsbD_eq fun i hi => ?_
    have hb : (commandWord 0x03#8 c).getLsbD i = if i < 21 then c.getLsbD i else (24#11).getLsbD (i - 21) := by
      show (24#11 ++ c : BitVec (11 + 21)).getLsbD i = _
      rw [BitVec.getLsbD_append]
    rw [BitVec.getLsbD_and, hb]
    interval_cases i <;> simp
  · show decodeTableWord 32 (commandWord 0x03#8 c).toNat = some (.push c)
    rw [decodeTableWord, if_neg (by norm_num), if_pos hw, BitVec.ofNat_toNat, BitVec.setWidth_eq]
    simp [decode, decodeCommand, Except.toOption]

theorem endMsg : Statement .endMsg := ⟨by decide, by decide⟩

theorem ita2Nul : Statement .ita2Nul := ⟨by decide, by decide⟩

theorem ita2E3 : Statement .ita2E3 := ⟨by decide, by decide⟩

theorem ita2Lf : Statement .ita2Lf := ⟨by decide, by decide⟩

theorem ita2ADash : Statement .ita2ADash := ⟨by decide, by decide⟩

theorem ita2Sp : Statement .ita2Sp := ⟨by decide, by decide⟩

theorem ita2SBel : Statement .ita2SBel := ⟨by decide, by decide⟩

theorem ita2I8 : Statement .ita2I8 := ⟨by decide, by decide⟩

theorem ita2U7 : Statement .ita2U7 := ⟨by decide, by decide⟩

theorem ita2Cr : Statement .ita2Cr := ⟨by decide, by decide⟩

theorem ita2DDollar : Statement .ita2DDollar := ⟨by decide, by decide⟩

theorem ita2R4 : Statement .ita2R4 := ⟨by decide, by decide⟩

theorem ita2JApos : Statement .ita2JApos := ⟨by decide, by decide⟩

theorem ita2NComma : Statement .ita2NComma := ⟨by decide, by decide⟩

theorem ita2FBang : Statement .ita2FBang := ⟨by decide, by decide⟩

theorem ita2CColon : Statement .ita2CColon := ⟨by decide, by decide⟩

theorem ita2KParenL : Statement .ita2KParenL := ⟨by decide, by decide⟩

theorem ita2T5 : Statement .ita2T5 := ⟨by decide, by decide⟩

theorem ita2ZQuote : Statement .ita2ZQuote := ⟨by decide, by decide⟩

theorem ita2LParenR : Statement .ita2LParenR := ⟨by decide, by decide⟩

theorem ita2W2 : Statement .ita2W2 := ⟨by decide, by decide⟩

theorem ita2HHash : Statement .ita2HHash := ⟨by decide, by decide⟩

theorem ita2Y6 : Statement .ita2Y6 := ⟨by decide, by decide⟩

theorem ita2P0 : Statement .ita2P0 := ⟨by decide, by decide⟩

theorem ita2Q1 : Statement .ita2Q1 := ⟨by decide, by decide⟩

theorem ita2O9 : Statement .ita2O9 := ⟨by decide, by decide⟩

theorem ita2BQuestion : Statement .ita2BQuestion := ⟨by decide, by decide⟩

theorem ita2GAmp : Statement .ita2GAmp := ⟨by decide, by decide⟩

theorem ita2Figs : Statement .ita2Figs := ⟨by decide, by decide⟩

theorem ita2MDot : Statement .ita2MDot := ⟨by decide, by decide⟩

theorem ita2XSlash : Statement .ita2XSlash := ⟨by decide, by decide⟩

theorem ita2VSemi : Statement .ita2VSemi := ⟨by decide, by decide⟩

theorem ita2Ltrs : Statement .ita2Ltrs := ⟨by decide, by decide⟩

end Sys2Proof.Laws.EncodingMatchesRow
end

