-- ==== Sys2Proof/Laws/Samples.lean ====
section
/-! SUPPORT. What is known of SAMPLE_FN and EPS_SIN (42_synthesizer.md R109): later proofs cite these, and nothing else can be
proved of them. -/

namespace Sys2Proof.Machine

variable (p : Sampling)

@[simp] theorem sampleFn_format (A θ : Rat) : (sampleFn p A θ).format = p.format := rfl

/-- P3 of 42_synthesizer.md R109: a sample is a number in [-A, A]. -/
theorem sampleFn_in_range {A : Rat} (hA : 0 ≤ A) (θ : Rat) :
    ∃ r, FloatVal.val (sampleFn p A θ) = some r ∧ -A ≤ r ∧ r ≤ A :=
  (openParamsOf p).2.in_range A θ hA

/-- P2 of 42_synthesizer.md R109: a sample is within EPS_SIN of the sine. -/
theorem sampleFn_accurate {A θ r : Rat} (h0 : 0 ≤ A) (h1 : A ≤ 1) (hr : FloatVal.val (sampleFn p A θ) = some r) :
    |(r : Real) - (A : Real) * Real.sin (2 * Real.pi * (θ : Real))| ≤ ((epsSin p : Rat) : Real) :=
  (openParamsOf p).2.accurate A θ r h0 h1 hr

/-- P4 of 42_synthesizer.md R109: a sample at phase 0 is 0. -/
theorem sampleFn_zero_phase (A : Rat) : FloatVal.val (sampleFn p A 0) = some 0 :=
  (openParamsOf p).2.zero_phase A

/-- The sample at phase 0 converts to 0 (42_synthesizer.md R109, P4; R110). -/
theorem pcmOf_sampleFn_zero_phase (A : Rat) : pcmOf (sampleFn p A 0) = 0 := by
  have h : sat16 (roundHalfAway 0) = 0 := by decide +kernel
  simpa [pcmOf, sampleFn_zero_phase] using h

end Sys2Proof.Machine
end

