-- ==== Sys2Proof/Laws/Step.lean ====
section
/-! SUPPORT. The step, said once: if it answers a next state, which move was made and what it did. Every invariant is a short
case analysis of this. -/

namespace Sys2Proof.Machine

@[simp] theorem allowedIn_nop (p : Phase) : allowedIn .nop p = true := rfl

@[simp] theorem allowedIn_cfg (p : Phase) : allowedIn .cfg p = (p == .idle || p == .done) := rfl

@[simp] theorem allowedIn_beginMsg (p : Phase) : allowedIn .beginMsg p = (p == .idle || p == .done) := rfl

@[simp] theorem allowedIn_push (c : Char21) (p : Phase) : allowedIn (.push c) p = (p == .accept) := rfl

@[simp] theorem allowedIn_endMsg (p : Phase) : allowedIn .endMsg p = (p == .accept) := rfl

/-- The moves of the machine. `s` is the state before, `t` the state after. -/
inductive Move (s t : State) : Prop where
  /-- The block's turn outside SYNTH: nothing moves. -/
  | stay (s' : State) (hb : s.blockNext s') (hp : s.phase ≠ .synth) (ht : t = s')
  /-- The last SYNTH step. -/
  | finish (s' : State) (hb : s.blockNext s') (hp : s.phase = .synth) (hn : s.nSamp = s.nTotal)
      (ht : t = finishMessage s')
  /-- A SYNTH step that makes a sample. -/
  | sample (s' : State) (hb : s.blockNext s') (k : Nat) (v : Sym) (hk : s.currentElement = some k)
      (hv : s.symq[k / 7]? = some v) (ht : t = emitSample (frameTone v (k % 7)) s')
  /-- A host step with no command. -/
  | idle (rest : List Event) (hs : s.schedule = .idle :: rest) (ht : t = takeEvent rest s)
  /-- The reset input. -/
  | reset (d : CfgData) (rest : List Event) (hs : s.schedule = .reset d :: rest)
      (ht : t = applyReset d (takeEvent rest s))
  /-- An illegal word. -/
  | illegal (w : Word) (d : CfgData) (rest : List Event) (hs : s.schedule = .command w d :: rest)
      (hi : ∀ i, decode (.word w) = .ok i → allowedIn i s.phase = false)
      (ht : t = raiseFault .illegalCommand (takeCommand d rest s))
  /-- NOP. -/
  | nop (w : Word) (d : CfgData) (rest : List Event) (hs : s.schedule = .command w d :: rest)
      (hd : decode (.word w) = .ok .nop) (ht : t = takeCommand d rest s)
  /-- CFG where it is legal. -/
  | cfg (w : Word) (d : CfgData) (rest : List Event) (hs : s.schedule = .command w d :: rest)
      (hd : decode (.word w) = .ok .cfg) (hp : s.phase = .idle ∨ s.phase = .done)
      (ht : t = loadCfg d (takeCommand d rest s))
  /-- BEGIN where it is legal. -/
  | beginMsg (w : Word) (d : CfgData) (rest : List Event) (hs : s.schedule = .command w d :: rest)
      (hd : decode (.word w) = .ok .beginMsg) (hp : s.phase = .idle ∨ s.phase = .done)
      (ht : t = openMessage (takeCommand d rest s))
  /-- PUSH where it is legal. -/
  | push (w : Word) (d : CfgData) (rest : List Event) (c : Char21) (hs : s.schedule = .command w d :: rest)
      (hd : decode (.word w) = .ok (.push c)) (hp : s.phase = .accept)
      (ht : t = frameChar c (takeCommand d rest s))
  /-- END where it is legal. -/
  | endMsg (w : Word) (d : CfgData) (rest : List Event) (hs : s.schedule = .command w d :: rest)
      (hd : decode (.word w) = .ok .endMsg) (hp : s.phase = .accept)
      (ht : t = closeMessage (takeCommand d rest s))

/-- A word decodes to an instruction exactly when it is that instruction's encoding (30_encoding.md R46). -/
theorem decode_word_iff (w : Word) (i : Instr) : decode (.word w) = .ok i ↔ encode i = .word w := by
  constructor
  · intro h
    simp only [decode, decodeCommand, decodeZ] at h
    split_ifs at h <;> simp only [Except.ok.injEq] at h <;> subst h <;>
      simp only [encode, Code.word.injEq]
    all_goals first
      | (rename_i h1 h2; rw [eq_commandWord w h2.1, h1, h2.2])
      | (rename_i h1 h2; rw [eq_commandWord w h2, h1, commandWord_cp])
  · intro h
    cases i <;> simp only [encode, reduceCtorEq, Code.word.injEq] at h <;> subst h <;>
      simp [decode, decodeCommand, decodeZ]

/-- A poll changes the schedule at most. -/
theorem pollDone_eq_takeEvent (rest : List Event) (s : State) : ∃ r, pollDone rest s = takeEvent r s := by
  unfold pollDone
  split_ifs
  · exact ⟨rest, rfl⟩
  · exact ⟨s.schedule, rfl⟩

/-- The three forms of the block's turn leave every register as it was. -/
theorem State.blockNext.eq_takeEvent {s s' : State} (h : s.blockNext s') : ∃ rest, s' = takeEvent rest s := by
  rcases h with ⟨-, rfl⟩ | ⟨rest, -, rfl⟩ | ⟨rest, -, rfl⟩
  · exact ⟨s'.schedule, rfl⟩
  · exact ⟨rest, rfl⟩
  · exact pollDone_eq_takeEvent rest s

/-- The block's turn. -/
theorem blockTurn_cases {s s' t : State} (hb : s.blockNext s') (h : blockTurn s' = .next t) : Move s t := by
  obtain ⟨rest, e⟩ := hb.eq_takeEvent
  have e1 : s'.phase = s.phase := by rw [e]; rfl
  have e2 : s'.currentElement = s.currentElement := by rw [e]; rfl
  have e3 : s'.symq = s.symq := by rw [e]; rfl
  have e4 : s'.nSamp = s.nSamp := by rw [e]; rfl
  have e5 : s'.nTotal = s.nTotal := by rw [e]; rfl
  unfold blockTurn at h
  rw [e1, e4, e5] at h
  split_ifs at h with hp hn
  · simp only [Host.Outcome.next.injEq] at h
    exact .finish s' hb hp hn h.symm
  · split at h
    · rw [runSymbol, exec_decodeSymbol] at h
      obtain ⟨k, hk, hv, ht⟩ := sendSymbol_next h
      rw [e2] at hk
      rw [e3] at hv
      exact .sample s' hb k _ hk hv ht
    · simp at h
  · simp only [Host.Outcome.next.injEq] at h
    exact .stay s' hb hp h.symm

/-- A command word's move. -/
theorem runCommand_cases {s t : State} {w : Word} {d : CfgData} {rest : List Event}
    (hs : s.schedule = .command w d :: rest) (h : runCommand w (takeCommand d rest s) = .next t) : Move s t := by
  unfold runCommand at h
  split at h
  · rename_i i hd
    have hw := (decode_word_iff w i).mp hd
    have bad : allowedIn i s.phase = false → t = raiseFault .illegalCommand (takeCommand d rest s) → Move s t :=
      fun ha ht => .illegal w d rest hs (fun j hj => by rw [hd] at hj; cases hj; exact ha) ht
    cases i <;> simp only [encode, reduceCtorEq] at hw
    · simp only [exec, execNop, Host.Outcome.next.injEq] at h
      exact .nop w d rest hs hd h.symm
    · simp only [exec, execCfg, takeCommand_bus] at h
      cases inPhases_next h with
      | inl h => exact .cfg w d rest hs hd (by simpa using h.1) h.2
      | inr h => exact bad (by simpa using h.1) h.2
    · simp only [exec, execBegin] at h
      cases inPhases_next h with
      | inl h => exact .beginMsg w d rest hs hd (by simpa using h.1) h.2
      | inr h => exact bad (by simpa using h.1) h.2
    · simp only [exec, execPush] at h
      cases inPhases_next h with
      | inl h => exact .push w d rest _ hs hd (by simpa using h.1) h.2
      | inr h => exact bad (by simpa using h.1) h.2
    · simp only [exec, execEnd] at h
      cases inPhases_next h with
      | inl h => exact .endMsg w d rest hs hd (by simpa using h.1) h.2
      | inr h => exact bad (by simpa using h.1) h.2
  · rename_i e hd
    simp only [Host.Outcome.next.injEq] at h
    exact .illegal w d rest hs (fun i hi => by rw [hd] at hi; simp at hi) h.symm

/-- The inversion of `step`: a next state comes from a legal ROM by one of the moves. -/
theorem step_cases {s t : State} (h : step s = .next t) : CodeTable.wf s.rom = true ∧ Move s t := by
  unfold step at h
  split_ifs at h with hr
  refine ⟨hr, ?_⟩
  unfold runSchedule at h
  split at h
  · rename_i hs
    exact blockTurn_cases (.inl ⟨hs, rfl⟩) h
  · rename_i rest hs
    simp only [Host.Outcome.next.injEq] at h
    exact .idle rest hs h.symm
  · rename_i rest hs
    exact blockTurn_cases (.inr (.inl ⟨rest, hs, rfl⟩)) h
  · rename_i rest hs
    exact blockTurn_cases (.inr (.inr ⟨rest, hs, rfl⟩)) h
  · rename_i w d rest hs
    exact runCommand_cases hs h
  · rename_i d rest hs
    simp only [Host.Outcome.next.injEq] at h
    exact .reset d rest hs h.symm

@[simp] theorem lastShift_nil : lastShift [] = .letters := rfl

/-- A symbol that is no shift symbol leaves the last shift as it was. -/
theorem lastShift_append_plain (q : List Sym) {v : Sym} (h : v ≠ figs ∧ v ≠ ltrs) : lastShift (q ++ [v]) = lastShift q := by
  induction q with
  | nil => simp [lastShift, h.1]
  | cons a q ih =>
    simp only [List.cons_append, lastShift, ih, List.mem_append, List.mem_singleton, h.1.symm, h.2.symm, or_false]

/-- A shift symbol is the last shift once it is appended. -/
theorem lastShift_append_shift (q : List Sym) {v : Sym} (h : v = figs ∨ v = ltrs) :
    lastShift (q ++ [v]) = if v = figs then .figures else .letters := by
  induction q with
  | nil => simp [lastShift]
  | cons a q ih =>
    have : figs ∈ q ++ [v] ∨ ltrs ∈ q ++ [v] := by rcases h with rfl | rfl <;> simp
    simp only [List.cons_append, lastShift, ih, this, if_true]

/-- A message in synthesis has a legal configuration, whatever the valid bit of the data alone. -/
theorem State.Inv.cfgValid_of_synth {s : State} (hi : s.Inv) (hp : s.phase = .synth) :
    cfgValid s.cfg = true ∧ cfgValid ⟨true, s.cfg.data⟩ = true := by
  have h := hi.cfg_checked (.inr hp)
  have h3 : cfgValid s.cfg = true := by
    cases hc : cfgValid s.cfg
    · simp [hc, (hi.synth_ok hp).1] at h
    · rfl
  refine ⟨h3, ?_⟩
  unfold cfgValid at h3 ⊢
  simp at h3 ⊢
  tauto

/-- The instruction a symbol encodes is the one its value decodes to. -/
theorem eq_decodeSymbol {i : Instr} {v : Sym} (h : encode i = .symbol v) : i = decodeSymbol v := by
  revert h
  cases i <;> simp [encode] <;> rintro rfl <;> rfl

/-- A block with a legal table does the next move of its schedule. -/
theorem step_eq_runSchedule {s : State} (h : CodeTable.wf s.rom = true) : step s = runSchedule s := by
  rw [step, if_pos h]

/-- All three forms of the block's turn are the block's turn. -/
theorem step_eq_blockTurn {s s' : State} (h : CodeTable.wf s.rom = true) (hb : s.blockNext s') : step s = blockTurn s' := by
  rw [step_eq_runSchedule h]
  unfold runSchedule
  rcases hb with ⟨hs, rfl⟩ | ⟨rest, hs, rfl⟩ | ⟨rest, hs, rfl⟩ <;> rw [hs] <;> rfl

/-! ### Runs of several steps -/

/-- A run takes its first step. -/
theorem run_succ {s t : State} (h : step s = .next t) (k : Nat) :
    Host.Core.run Sys2Proof.core (k + 1) s = Host.Core.run Sys2Proof.core k t := by
  have h' : Sys2Proof.core.step s = .next t := h
  simp only [Host.Core.run, h']

/-- A run that ends in a next state took a step to a next state first. -/
theorem run_succ_next {s t : State} {k : Nat} (h : Host.Core.run Sys2Proof.core (k + 1) s = .next t) :
    ∃ u : State, step s = .next u ∧ Host.Core.run Sys2Proof.core k u = .next t := by
  cases hs : step s with
  | next u => exact ⟨u, rfl, by rw [← run_succ hs]; exact h⟩
  | fault r =>
    have h' : Sys2Proof.core.step s = .fault r := hs
    simp only [Host.Core.run, h'] at h
    cases h
  | refused r =>
    have h' : Sys2Proof.core.step s = .refused r := hs
    simp only [Host.Core.run, h'] at h
    cases h

/-- A run goes on from where its first part ends. -/
theorem run_add {s t : State} {j : Nat} (h : Host.Core.run Sys2Proof.core j s = .next t) (k : Nat) :
    Host.Core.run Sys2Proof.core (j + k) s = Host.Core.run Sys2Proof.core k t := by
  induction j generalizing s with
  | zero => cases h; rw [Nat.zero_add]
  | succ j ih =>
    obtain ⟨u, h1, h2⟩ := run_succ_next h
    rw [Nat.add_right_comm, run_succ h1]
    exact ih h2

end Sys2Proof.Machine
end

