-- ==== Sys2Proof/Tests/Slice0.lean ====
section
/-! SUPPORT. The model's own tests and the witnesses of the statements. Expected results are the spec's: the encodings of
30_encoding.md and 40_codetable.md, the vectors of 95_test_vectors.md (each test names its own), or a hand calculation from a
rule. Each test is one step or one lookup. -/

namespace Sys2Proof.Tests

set_option Elab.async false

open Sys2Proof Sys2Proof.Machine

/-! ### Helpers -/

/-- A value of the next state, if there is one. -/
def onNext {α : Type} (o : Host.Outcome State Fault Refusal) (f : State → α) : Option α :=
  match o with
  | .next t => some (f t)
  | .fault _ => none
  | .refused _ => none

/-- The refusal, if there is one. -/
def refusal (o : Host.Outcome State Fault Refusal) : Option Refusal :=
  match o with
  | .next _ => none
  | .fault _ => none
  | .refused r => some r

/-- A checked next state, as the statements speak of it. -/
theorem nextWith {o : Host.Outcome State Fault Refusal} (P : State → Prop) [DecidablePred P]
    (h : onNext o (fun t => decide (P t)) = some true) : ∃ t, o = .next t ∧ P t := by
  cases o with
  | next t => exact ⟨t, rfl, by simpa [onNext] using h⟩
  | fault r => simp [onNext] at h
  | refused r => simp [onNext] at h

/-- The same for a step of a block with the US-TTY table. -/
theorem stepWith {s : State} (P : State → Prop) [DecidablePred P] (h : onNext (runSchedule s) (fun t => decide (P t)) = some true)
    (hr : s.rom = usTty := by rfl) : ∃ t, step s = .next t ∧ P t := by
  have : step s = runSchedule s := by rw [step, hr, usTty_wf]; rfl
  rw [this]
  exact nextWith P h

/-- One sample a bit; a MARK sample advances the phase by 1/4, a SPACE sample by 1/2. -/
def testCfg : CfgData := ⟨1, 1, 1 / 4, 1 / 2, 1, 1, false, .float⟩

/-- The configuration of V-S2 of 95_test_vectors.md. -/
def cqCfg : CfgData := ⟨909 / 20, 8000, 2125, 2295, 3 / 2, 4 / 5, false, .float⟩

/-- testCfg with skip mode on. -/
def skipCfg : CfgData := { testCfg with skipUnknownChars := true }

/-- testCfg with its two tones made equal: an invalid configuration. -/
def badCfg : CfgData := { testCfg with spaceFrequency := 1 / 4 }

/-- A block in a phase, configured with d, nothing taken. -/
def inPhase (p : Phase) (d : CfgData) : State :=
  { State.reset with
    cfg := ⟨true, d⟩, phase := p
    result := match p with
      | .done => .ok
      | _ => .none }

/-- A message open for characters. -/
def accepting : State := inPhase .accept testCfg

/-- The symbols q being sent under testCfg, sample n next. -/
def sending (q : List Sym) (n : Nat) : State :=
  { inPhase .synth testCfg with symq := q, charIdx := q.length, nTotal := 7 * q.length, nSamp := n }

/-- s with one command word on the command port. -/
def withWord (w : Word) (s : State) : State := { s with schedule := [.command w testCfg] }

/-- s with one turn of the block scheduled. -/
def withTurn (s : State) : State := { s with schedule := [.synth] }

/-- s with the host waiting, and a BEGIN to come. -/
def waiting (s : State) : State := { s with schedule := [.wait, .command 0x02000000#32 testCfg] }

/-- A binary64 value by its bits. -/
def double (bits : BitVec 64) : FloatVal := ⟨.binary64, bits⟩

/-- A binary32 value by its bits. -/
def single (bits : BitVec 32) : FloatVal := ⟨⟨8, 23⟩, bits⟩

/-- The phase a MARK sample leaves under testCfg, starting from 0. -/
def M : Option Rat := some (1 / 4)

/-- The phase a SPACE sample leaves under testCfg, starting from 0. -/
def S : Option Rat := some (1 / 2)

/-- The tones a symbol sends at its seven elements, each read from the phase one step leaves. -/
def tonesSent (i : Instr) (v : Sym) : List (Option Rat) :=
  (List.range 7).map fun n => onNext (exec i (sending [v] n)) State.theta

/-- The US-TTY table with one entry changed. -/
def spoilt (addr : Nat) (c : Char21) : CodeTable := usTty.setIfInBounds addr ⟨true, c⟩

/-- The block right after reset, built with another table. -/
def withRom (t : CodeTable) : State := { State.reset with rom := t }

/-! ### Well-formedness of CODE_TABLE: one ill-formed table for each check, each refused (40_codetable.md R57) -/

/-- W1: the letter E at two codes of the LETTERS half. -/
theorem test_wf_w1 : CodeTable.w1 (spoilt 16 0x45#21) = false ∧
    refusal (step (withRom (spoilt 16 0x45#21))) = some .illegalCodeTable := by
  decide +kernel

/-- W2: the letter E in both halves, at different codes. -/
theorem test_wf_w2_codes : CodeTable.w2 (spoilt 48 0x45#21) = false ∧
    refusal (step (withRom (spoilt 48 0x45#21))) = some .illegalCodeTable := by
  decide +kernel

/-- W2: the letter E in both halves at the same code, which is not NEUTRAL. -/
theorem test_wf_w2_neutral : CodeTable.w2 (spoilt 33 0x45#21) = false ∧
    refusal (step (withRom (spoilt 33 0x45#21))) = some .illegalCodeTable := by
  decide +kernel

/-- W3: a character at the shift code 0x1B. -/
theorem test_wf_w3 : CodeTable.w3 (spoilt 27 0x25#21) = false ∧
    refusal (step (withRom (spoilt 27 0x25#21))) = some .illegalCodeTable := by
  decide +kernel

/-- W4: the lowercase e in the table. -/
theorem test_wf_w4 : CodeTable.w4 (spoilt 1 0x65#21) = false ∧
    refusal (step (withRom (spoilt 1 0x65#21))) = some .illegalCodeTable := by
  decide +kernel

/-! ### Decoding: words written out from the encodings -/

/-- OP, RSV and CP of 30_encoding.md R45 and R46, and the words of 95_test_vectors.md 2.1. -/
theorem test_decode_commands :
    decode (.word 0b00000000_000_000000000000000000000#32) = .ok .nop ∧
    decode (.word 0b00000001_000_000000000000000000000#32) = .ok .cfg ∧
    decode (.word 0b00000010_000_000000000000000000000#32) = .ok .beginMsg ∧
    decode (.word 0b00000011_000_000000000000001000001#32) = .ok (.push 0x41#21) ∧
    decode (.word 0b00000100_000_000000000000000000000#32) = .ok .endMsg ∧
    decode (.word 0x031FFFFF#32) = .ok (.push 0x1FFFFF#21) ∧ decode (.word 0x0300D800#32) = .ok (.push 0xD800#21) := by
  decide

/-- The illegal words of 95_test_vectors.md 2.1, each by its case of 30_encoding.md R48. -/
theorem test_decode_illegal :
    decode (.word 0x03200041#32) = .error .reservedBits ∧ decode (.word 0x03E00000#32) = .error .reservedBits ∧
    decode (.word 0x02000005#32) = .error .operandNotZero ∧ decode (.word 0x00000001#32) = .error .operandNotZero ∧
    decode (.word 0x05000000#32) = .error .reservedOpcode ∧ decode (.word 0xFF000000#32) = .error .reservedOpcode := by
  decide

/-- v[4:0] of 40_codetable.md R58 to R65. -/
theorem test_decode_symbols_0 :
    decode (.symbol 0b00000#5) = .ok .ita2Nul ∧
    decode (.symbol 0b00001#5) = .ok .ita2E3 ∧
    decode (.symbol 0b00010#5) = .ok .ita2Lf ∧
    decode (.symbol 0b00011#5) = .ok .ita2ADash ∧
    decode (.symbol 0b00100#5) = .ok .ita2Sp ∧
    decode (.symbol 0b00101#5) = .ok .ita2SBel ∧
    decode (.symbol 0b00110#5) = .ok .ita2I8 ∧
    decode (.symbol 0b00111#5) = .ok .ita2U7 := by
  decide

/-- v[4:0] of 40_codetable.md R66 to R73. -/
theorem test_decode_symbols_1 :
    decode (.symbol 0b01000#5) = .ok .ita2Cr ∧
    decode (.symbol 0b01001#5) = .ok .ita2DDollar ∧
    decode (.symbol 0b01010#5) = .ok .ita2R4 ∧
    decode (.symbol 0b01011#5) = .ok .ita2JApos ∧
    decode (.symbol 0b01100#5) = .ok .ita2NComma ∧
    decode (.symbol 0b01101#5) = .ok .ita2FBang ∧
    decode (.symbol 0b01110#5) = .ok .ita2CColon ∧
    decode (.symbol 0b01111#5) = .ok .ita2KParenL := by
  decide

/-- v[4:0] of 40_codetable.md R74 to R81. -/
theorem test_decode_symbols_2 :
    decode (.symbol 0b10000#5) = .ok .ita2T5 ∧
    decode (.symbol 0b10001#5) = .ok .ita2ZQuote ∧
    decode (.symbol 0b10010#5) = .ok .ita2LParenR ∧
    decode (.symbol 0b10011#5) = .ok .ita2W2 ∧
    decode (.symbol 0b10100#5) = .ok .ita2HHash ∧
    decode (.symbol 0b10101#5) = .ok .ita2Y6 ∧
    decode (.symbol 0b10110#5) = .ok .ita2P0 ∧
    decode (.symbol 0b10111#5) = .ok .ita2Q1 := by
  decide

/-- v[4:0] of 40_codetable.md R82 to R89. -/
theorem test_decode_symbols_3 :
    decode (.symbol 0b11000#5) = .ok .ita2O9 ∧
    decode (.symbol 0b11001#5) = .ok .ita2BQuestion ∧
    decode (.symbol 0b11010#5) = .ok .ita2GAmp ∧
    decode (.symbol 0b11011#5) = .ok .ita2Figs ∧
    decode (.symbol 0b11100#5) = .ok .ita2MDot ∧
    decode (.symbol 0b11101#5) = .ok .ita2XSlash ∧
    decode (.symbol 0b11110#5) = .ok .ita2VSemi ∧
    decode (.symbol 0b11111#5) = .ok .ita2Ltrs := by
  decide

/-- The table's numbering: a symbol row is one byte, a command row four; a number over the row's space is no unit of it. -/
theorem test_decode_table_word :
    decodeTableWord 8 0x1B = some .ita2Figs ∧ decodeTableWord 8 0x20 = none ∧
    decodeTableWord 32 0x03000041 = some (.push 0x41#21) ∧ decodeTableWord 32 0x05000000 = none := by
  decide

/-- The placed command word is what the next step runs. -/
theorem test_fetch_command : onNext (step (State.reset.withFetchWord 32 0x02000000)) State.phase = some .accept := by
  decide +kernel

/-- The placed code symbol is what the next step runs: one sample, of its SPACE start element. -/
theorem test_fetch_symbol : onNext (step (State.reset.withFetchWord 8 0x1F)) (fun t => (t.outbuf.length, t.theta)) =
    some (1, frac (fetchCfg.spaceFrequency / fetchCfg.sampleRate)) := by
  decide +kernel

/-! ### Commands -/

/-- NOP: no effect in SYNTH (95_test_vectors.md 2.2). -/
theorem test_nop_synth : onNext (step (withWord 0x00000000#32 (sending [0x01#5] 0))) (fun t => (t.phase, t.cmdErr, t.nSamp)) =
    some (.synth, false, 0) := by
  decide +kernel

/-- CFG in DONE: the bus is loaded, RESULT still readable (95_test_vectors.md 2.2). -/
theorem test_cfg_done : onNext (step (withWord 0x01000000#32 (inPhase .done cqCfg))) (fun t => (t.cfg, t.result, t.phase)) =
    some (⟨true, testCfg⟩, .ok, .done) := by
  decide +kernel

/-- CFG in ACCEPT: CMDERR, CFG unchanged (95_test_vectors.md 2.2). -/
theorem test_cfg_accept : onNext (step (withWord 0x01000000#32 (inPhase .accept cqCfg))) (fun t => (t.cfg, t.cmdErr)) =
    some (⟨true, cqCfg⟩, true) := by
  decide +kernel

/-- BEGIN before any CFG: ERR is INVALID_CONFIG (V-R2). -/
theorem test_begin_no_cfg : onNext (exec .beginMsg State.reset) (fun t => (t.phase, t.err)) =
    some (.accept, .invalidConfig) := by
  decide +kernel

/-- BEGIN after P1: STATUS is 0x81 (V-R3). -/
theorem test_begin_done : onNext (exec .beginMsg (inPhase .done cqCfg)) State.status = some 0x81#32 := by
  decide +kernel

/-- PUSH '1' in LETTERS appends FIGS and 0x17 (43_encoder.md R120); STATUS is then 0xC1 (P2). -/
theorem test_push_shift : onNext (exec (.push 0x31#21) accepting) (fun t => (t.symq, t.ss, t.charIdx, t.status)) =
    some ([0x1B#5, 0x17#5], .figures, 1, 0xC1#32) := by
  decide +kernel

/-- PUSH 'B' with MAX_SYMBOLS = 4 and three symbols in FIGURES (V-X5): CAPERR, SYMQ and SS as they were, CHARIDX advanced. -/
theorem test_push_capacity :
    onNext (exec (.push 0x42#21) { accepting with maxSymbols := some 4, symq := [0x03#5, 0x1B#5, 0x17#5], ss := .figures,
                                                  charIdx := 2 })
      (fun t => (t.capErr, t.symq, t.ss, t.charIdx)) = some (true, [0x03#5, 0x1B#5, 0x17#5], .figures, 3) := by
  decide +kernel

/-- END of "CQ": NTOTAL is 2640, STATUS 0x82 (P1). -/
theorem test_end_cq : onNext (exec .endMsg { inPhase .accept cqCfg with symq := [0x0E#5, 0x17#5] })
    (fun t => (t.nTotal, t.status)) = some (2640, 0x82#32) := by
  decide +kernel

/-- END of a failed message: straight to DONE, SYMQ discarded, STATUS 0x8F (P4, V-X7). -/
theorem test_end_failed : onNext (exec .endMsg { accepting with err := .unsupportedCharacter, errChar := 0xE9#21, symq := [0x03#5] })
    (fun t => (t.symq, t.errChar, t.status)) = some ([], 0xE9#21, 0x8F#32) := by
  decide +kernel

/-! ### Code symbols on the line -/

/-- The line order of 40_codetable.md R58 to R65, in the frame of 41_framer.md R97: each symbol's seven tones, one
SYNTH step each. -/
theorem test_line_symbols_0 :
    tonesSent .ita2Nul 0b00000#5 = [S, S, S, S, S, S, M] ∧
    tonesSent .ita2E3 0b00001#5 = [S, M, S, S, S, S, M] ∧
    tonesSent .ita2Lf 0b00010#5 = [S, S, M, S, S, S, M] ∧
    tonesSent .ita2ADash 0b00011#5 = [S, M, M, S, S, S, M] ∧
    tonesSent .ita2Sp 0b00100#5 = [S, S, S, M, S, S, M] ∧
    tonesSent .ita2SBel 0b00101#5 = [S, M, S, M, S, S, M] ∧
    tonesSent .ita2I8 0b00110#5 = [S, S, M, M, S, S, M] ∧
    tonesSent .ita2U7 0b00111#5 = [S, M, M, M, S, S, M] := by
  decide +kernel

/-- The line order of 40_codetable.md R66 to R73, in the frame of 41_framer.md R97: each symbol's seven tones, one
SYNTH step each. -/
theorem test_line_symbols_1 :
    tonesSent .ita2Cr 0b01000#5 = [S, S, S, S, M, S, M] ∧
    tonesSent .ita2DDollar 0b01001#5 = [S, M, S, S, M, S, M] ∧
    tonesSent .ita2R4 0b01010#5 = [S, S, M, S, M, S, M] ∧
    tonesSent .ita2JApos 0b01011#5 = [S, M, M, S, M, S, M] ∧
    tonesSent .ita2NComma 0b01100#5 = [S, S, S, M, M, S, M] ∧
    tonesSent .ita2FBang 0b01101#5 = [S, M, S, M, M, S, M] ∧
    tonesSent .ita2CColon 0b01110#5 = [S, S, M, M, M, S, M] ∧
    tonesSent .ita2KParenL 0b01111#5 = [S, M, M, M, M, S, M] := by
  decide +kernel

/-- The line order of 40_codetable.md R74 to R81, in the frame of 41_framer.md R97: each symbol's seven tones, one
SYNTH step each. -/
theorem test_line_symbols_2 :
    tonesSent .ita2T5 0b10000#5 = [S, S, S, S, S, M, M] ∧
    tonesSent .ita2ZQuote 0b10001#5 = [S, M, S, S, S, M, M] ∧
    tonesSent .ita2LParenR 0b10010#5 = [S, S, M, S, S, M, M] ∧
    tonesSent .ita2W2 0b10011#5 = [S, M, M, S, S, M, M] ∧
    tonesSent .ita2HHash 0b10100#5 = [S, S, S, M, S, M, M] ∧
    tonesSent .ita2Y6 0b10101#5 = [S, M, S, M, S, M, M] ∧
    tonesSent .ita2P0 0b10110#5 = [S, S, M, M, S, M, M] ∧
    tonesSent .ita2Q1 0b10111#5 = [S, M, M, M, S, M, M] := by
  decide +kernel

/-- The line order of 40_codetable.md R82 to R89, in the frame of 41_framer.md R97: each symbol's seven tones, one
SYNTH step each. -/
theorem test_line_symbols_3 :
    tonesSent .ita2O9 0b11000#5 = [S, S, S, S, M, M, M] ∧
    tonesSent .ita2BQuestion 0b11001#5 = [S, M, S, S, M, M, M] ∧
    tonesSent .ita2GAmp 0b11010#5 = [S, S, M, S, M, M, M] ∧
    tonesSent .ita2Figs 0b11011#5 = [S, M, M, S, M, M, M] ∧
    tonesSent .ita2MDot 0b11100#5 = [S, S, S, M, M, M, M] ∧
    tonesSent .ita2XSlash 0b11101#5 = [S, M, S, M, M, M, M] ∧
    tonesSent .ita2VSemi 0b11110#5 = [S, S, M, M, M, M, M] ∧
    tonesSent .ita2Ltrs 0b11111#5 = [S, M, M, M, M, M, M] := by
  decide +kernel

/-! ### Lookup, configuration, timing, samples -/

/-- 95_test_vectors.md 2.3. -/
theorem test_lookup : symbolFor usTty 0x7A#21 = some (0x11#5, .letters) ∧ symbolFor usTty 0x27#21 = some (0x0B#5, .figures) ∧
    symbolFor usTty 0x0D#21 = some (0x08#5, .neutral) ∧ symbolFor usTty 0xC9#21 = none ∧ symbolFor usTty 0x1B#21 = none ∧
    characterFor usTty 0x04#5 .figures = some 0x20#21 ∧ characterFor usTty 0x16#5 .figures = some 0x30#21 ∧
    characterFor usTty 0x1F#5 .figures = none := by
  decide +kernel

/-- V-C1: one field of the base configuration changed. -/
theorem test_cfg_valid : cfgValid ⟨true, cqCfg⟩ = true ∧ cfgValid ⟨false, cqCfg⟩ = false ∧
    cfgValid ⟨true, { cqCfg with baudRate := 0 }⟩ = false ∧ cfgValid ⟨true, { cqCfg with sampleRate := 0 }⟩ = false ∧
    cfgValid ⟨true, { cqCfg with spaceFrequency := 2125 }⟩ = false ∧ cfgValid ⟨true, { cqCfg with amplitude := 1 }⟩ = true ∧
    cfgValid ⟨true, { cqCfg with amplitude := 10001 / 10000 }⟩ = false ∧ cfgValid ⟨true, { cqCfg with amplitude := 0 }⟩ = false ∧
    cfgValid ⟨true, { cqCfg with stopBitMultiplier := 1 }⟩ = true ∧ cfgValid ⟨true, { cqCfg with stopBitMultiplier := 1 / 2 }⟩ = false ∧
    cfgValid ⟨true, { cqCfg with markFrequency := 0 }⟩ = false ∧ cfgValid ⟨true, { cqCfg with spaceFrequency := -2295 }⟩ = false := by
  decide +kernel

/-- V-S4: the halves round up. V-S5: elements that hold no sample. -/
theorem test_boundaries :
    (List.range 8).map (boundary ⟨2, 3, 1, 2, 1, 1, false, .float⟩) = [0, 2, 3, 5, 6, 8, 9, 11] ∧
    (List.range 8).map (boundary ⟨20, 10, 3, 2, 1, 1, false, .float⟩) = [0, 1, 1, 2, 2, 3, 3, 4] := by
  decide +kernel

/-- 70_reset_and_hazards.md R146: one frame of seven samples is complete with the seventh, and no other chunk is; after reset
none is (assumption log 20). -/
theorem test_chunk_complete :
    let made := fun n => { sending [0x03#5] n with outbuf := List.replicate n (.int16 0) }
    (made 6).chunkComplete 0 = false ∧ (made 7).chunkComplete 0 = true ∧ (made 7).chunk 0 = (made 7).outbuf ∧
    (made 7).chunkComplete 1 = false ∧ (made 7).chunk 1 = [] ∧ State.reset.chunkComplete 0 = false := by
  decide +kernel

/-- V-S7, on the bits of 0.5, -0.5, the double nearest 0.8, 1.0, -1.0 and 3 * 2^-16. -/
theorem test_int16 : pcmOf (double 0x3FE0000000000000#64) = 16384 ∧ pcmOf (double 0xBFE0000000000000#64) = -16384 ∧
    pcmOf (double 0x3FE999999999999A#64) = 26214 ∧ pcmOf (double 0x3FF0000000000000#64) = 32767 ∧
    pcmOf (double 0xBFF0000000000000#64) = -32767 ∧ pcmOf (double 0x3F08000000000000#64) = 1 := by
  decide +kernel

/-- IEEE 754 at another width, binary32: 1/2, the largest number, the least subnormal, minus infinity. -/
theorem test_binary32 : FloatVal.val (single 0x3F000000#32) = some (1 / 2) ∧
    FloatVal.val (single 0x7F7FFFFF#32) = some (((2 ^ 24 - 1) * 2 ^ 104 : Nat) : Rat) ∧
    FloatVal.val (single 0x00000001#32) = some (1 / ((2 ^ 149 : Nat) : Rat)) ∧ FloatVal.val (single 0xFF800000#32) = none := by
  decide +kernel

/-- The sample at phase 0 is 0 (42_synthesizer.md R109, P4), whatever the open parameters: so is the first INT16 sample. -/
theorem test_first_sample : onNext (exec .ita2E3 { sending [0x01#5] 0 with cfg := ⟨true, { testCfg with outputFormat := .int16 }⟩ })
    State.outbuf = some [.int16 0] := by
  have h : exec .ita2E3 { sending [0x01#5] 0 with cfg := ⟨true, { testCfg with outputFormat := .int16 }⟩ } =
      .next (emitSample (frameTone 0x01#5 0) { sending [0x01#5] 0 with cfg := ⟨true, { testCfg with outputFormat := .int16 }⟩ }) :=
    sendSymbol_onLine (k := 0) (by decide +kernel) (by decide +kernel)
  rw [h]
  simp [onNext, sending, inPhase, State.reset, conv, pcmOf_sampleFn_zero_phase]

/-- A legal table may hold a character that is no scalar value: it stays unsupported (R90's corner cases; 30_encoding.md R49;
assumption log 18), at both ends of the surrogates and above 0x10FFFF. -/
theorem test_lookup_scalar :
    ([0xD800#21, 0xDFFF#21, 0x110000#21, 0x1FFFFF#21].all fun c =>
      CodeTable.wf (spoilt 1 c) && symbolFor (spoilt 1 c) c == none) = true ∧
    ([0xD7FF#21, 0xE000#21, 0x10FFFF#21].all fun c => symbolFor (spoilt 1 c) c == some (0x01#5, .letters)) = true := by
  decide +kernel

/-- W2's words let code 0x00 hold another character in FIGURES than in LETTERS; NEUTRAL then reads the LETTERS half (R91's
pseudocode; assumption log 10). -/
theorem test_neutral_halves : CodeTable.wf (spoilt 32 0x25#21) = true ∧
    characterFor (spoilt 32 0x25#21) 0x00#5 .neutral = some 0x00#21 ∧
    characterFor (spoilt 32 0x25#21) 0x00#5 .figures = some 0x25#21 := by
  decide +kernel

/-- WAIT (30_encoding.md R53): in SYNTH the block makes a sample and the host goes on waiting. -/
theorem test_wait_synth : onNext (step (waiting (sending [0x03#5] 0))) (fun t => (t.nSamp, t.schedule)) =
    some (1, (waiting accepting).schedule) := by
  decide +kernel

/-- WAIT (30_encoding.md R53): in DONE the poll ends the wait, and BEGIN comes next. -/
theorem test_wait_done : onNext (step (waiting (inPhase .done cqCfg))) (fun t => (t.phase, t.nextCommand)) =
    some (.done, some .beginMsg) := by
  decide +kernel

/-- A wait stands where its line stands: the CFG after it is not taken before DONE (V-E2). -/
theorem test_assemble_wait : assemble testCfg [.endMsg, .wait, .cfg cqCfg] =
    [.command 0x04000000#32 testCfg, .wait, .command 0x01000000#32 cqCfg] := by
  decide +kernel

/-- The lines of P1, P3 and P6 as text (30_encoding.md R52, R53). -/
theorem test_assembler :
    parseLine "CFG  baud=45.45 rate=8000 mark=2125 space=2295 stop=1.5 amp=0.8 skip=0 fmt=FLOAT   ; 0x01000000".toList =
      some (.cfg cqCfg) ∧
    parseLine "PUSH U+00E9     ; 0x030000E9".toList = some (.push 0xE9#21) ∧
    parseLine "PUSH 'A'        ; 0x03000041".toList = some (.push 0x41#21) ∧
    parseLine "SEND \"CQ\"".toList = some (.send [0x43#21, 0x51#21]) ∧ parseLine "NOP".toList = some .nop := by
  decide +kernel

/-! ### Witnesses: for each statement that has hypotheses, a state and operands that meet them together -/

theorem accepting_inv : accepting.Inv := by
  constructor <;> simp [accepting, inPhase, State.reset, usTty_wf, exceeds, Config.maxSymbolsDefault, Config.maxSamplesDefault]
  decide +kernel

theorem sending_inv : (sending [0x03#5] 0).Inv := by
  have h : messageSamples testCfg 1 = 7 := by decide +kernel
  have hv : cfgValid ⟨true, testCfg⟩ = true := by decide +kernel
  constructor <;> simp [sending, inPhase, State.reset, usTty_wf, exceeds, Config.maxSymbolsDefault, Config.maxSamplesDefault,
    lastShift, figs, ltrs, phaseAt, h, hv]

/-- An empty message about to finish: NSAMP = NTOTAL = 0 (V-E5). -/
theorem sendingNothing_inv : (sending [] 0).Inv := by
  have h : messageSamples testCfg 0 = 0 := by decide +kernel
  have hv : cfgValid ⟨true, testCfg⟩ = true := by decide +kernel
  constructor <;> simp [sending, inPhase, State.reset, usTty_wf, exceeds, Config.maxSymbolsDefault, Config.maxSamplesDefault,
    phaseAt, h, hv]

/-- No clause of the invariant reads the schedule. -/
theorem withTurn_inv {s : State} (h : s.Inv) : (withTurn s).Inv := { h with }

/-- The forms of the block's turn: nothing scheduled, a turn scheduled, a host that waits before DONE and in DONE. -/
theorem witness_blockNext : accepting.blockNext accepting ∧ (withTurn accepting).blockNext accepting ∧
    (waiting accepting).blockNext (waiting accepting) ∧
    (waiting (inPhase .done cqCfg)).blockNext { inPhase .done cqCfg with schedule := [.command 0x02000000#32 testCfg] } :=
  ⟨.inl ⟨rfl, rfl⟩, .inr (.inl ⟨[], rfl, rfl⟩), .inr (.inr ⟨_, rfl, rfl⟩), .inr (.inr ⟨_, rfl, rfl⟩)⟩

theorem witness_DecodeEncodeInverse : decode (.word 0x031FFFFF#32) = .ok (.push 0x1FFFFF#21) ∧
    decode (.symbol 0x1F#5) = .ok .ita2Ltrs := by
  decide

theorem witness_OpcodeMapMatchMask : decode (.word 0x02000000#32) = .ok .beginMsg ∧
    decode (.word 0x031FFFFF#32) = .ok (.push 0x1FFFFF#21) := by
  decide

theorem witness_OperandAssembly : decode (.word 0x03000041#32) = .ok (.push 0x41#21) ∧
    CodeTable.wf (withWord 0x01000000#32 State.reset).rom = true ∧
    (withWord 0x01000000#32 State.reset).phase = .idle ∧ (withWord 0x01000000#32 (inPhase .done cqCfg)).phase = .done ∧
    (withWord 0x01000000#32 State.reset).schedule = .command 0x01000000#32 testCfg :: [] :=
  ⟨by decide, usTty_wf, rfl, rfl, rfl⟩

theorem witness_StepRunsDecoded_command : CodeTable.wf (withWord 0x03000041#32 accepting).rom = true ∧
    (withWord 0x03000041#32 accepting).schedule = .command 0x03000041#32 testCfg :: [] ∧
    decode (.word 0x03000041#32) = .ok (.push 0x41#21) :=
  ⟨usTty_wf, rfl, by decide⟩

theorem witness_StepRunsDecoded_symbol : CodeTable.wf (withTurn (sending [0x03#5] 6)).rom = true ∧
    (withTurn (sending [0x03#5] 6)).blockNext (sending [0x03#5] 6) ∧ (sending [0x03#5] 6).blockNext (sending [0x03#5] 6) ∧
    (sending [0x03#5] 6).phase = .synth ∧ (sending [0x03#5] 6).nSamp ≠ (sending [0x03#5] 6).nTotal ∧
    (sending [0x03#5] 6).onLine = some 0x03#5 ∧ decode (.symbol 0x03#5) = .ok .ita2ADash :=
  ⟨usTty_wf, .inr (.inl ⟨[], rfl, rfl⟩), .inl ⟨rfl, rfl⟩, rfl, by decide, by decide +kernel, by decide⟩

/-- The rows of the code table speak of such a state; SS may be either. -/
theorem witness_CodeTableRows : (accepting.rom = usTty ∧ accepting.phase = .accept ∧ accepting.err = .none ∧ accepting.roomFor 2) ∧
    { accepting with ss := .figures, maxSymbols := some 2 }.roomFor 2 :=
  ⟨⟨rfl, rfl, rfl, fun _ h => by cases h⟩, fun m h => by cases h; decide⟩

theorem witness_ControlCharacterRows : accepting.rom = usTty ∧ accepting.phase = .accept ∧ accepting.err = .none ∧
    { accepting with maxSymbols := some 1 }.roomFor 1 :=
  ⟨rfl, rfl, rfl, fun m h => by cases h; decide⟩

theorem witness_ShiftSymbolRows_figs : (withWord 0x03000031#32 accepting).rom = usTty ∧
    ∃ t, step (withWord 0x03000031#32 accepting) = .next t ∧ 0x1B#5 ∈ t.symq.drop accepting.symq.length :=
  ⟨rfl, stepWith (fun t => 0x1B#5 ∈ t.symq.drop accepting.symq.length) (by decide +kernel)⟩

theorem witness_ShiftSymbolRows_ltrs : ∃ t, step (withWord 0x03000041#32 { accepting with ss := .figures }) = .next t ∧
    0x1F#5 ∈ t.symq.drop accepting.symq.length :=
  stepWith (fun t => 0x1F#5 ∈ t.symq.drop accepting.symq.length) (by decide +kernel)

/-- The range of folding at its ends, and an unmapped character in both modes. -/
theorem witness_FoldingIsForLookupOnly : fold 0x60#21 = 0x60#21 ∧ fold 0x61#21 = 0x41#21 ∧ fold 0x7A#21 = 0x5A#21 ∧
    fold 0x7B#21 = 0x7B#21 ∧ accepting.phase = .accept ∧ accepting.err = .none ∧ symbolFor accepting.rom 0xE9#21 = none ∧
    accepting.cfg.data.skipUnknownChars = false ∧ (inPhase .accept skipCfg).cfg.data.skipUnknownChars = true := by
  decide +kernel

theorem witness_ForwardLookup : CodeTable.wf usTty = true ∧ symbolFor usTty 0x20#21 = some (0x04#5, .neutral) ∧
    symbolFor usTty 0x61#21 = some (0x03#5, .letters) ∧ symbolFor usTty 0x31#21 = some (0x17#5, .figures) ∧
    symbolFor usTty 0xE9#21 = none ∧ CodeTable.wf (spoilt 1 0xD800#21) = true ∧
    (CodeTable.entry (spoilt 1 0xD800#21) .letters 0x01#5).present = true ∧
    (CodeTable.entry (spoilt 1 0xD800#21) .letters 0x01#5).char = fold 0xD800#21 ∧ fold 0xDFFF#21 = 0xDFFF#21 := by
  decide +kernel

theorem witness_InverseLookup : CodeTable.wf usTty = true := usTty_wf

theorem witness_LookupRoundTrip : CodeTable.wf usTty = true ∧ symbolFor usTty 0x7A#21 = some (0x11#5, .letters) := by
  decide +kernel

theorem witness_SymbolTags : 0x01#5 ∉ [0x1B#5, 0x1F#5, 0x00#5, 0x02#5, 0x04#5, 0x08#5] ∧
    symbolFor usTty 0x22#21 = some (0x11#5, .figures) := by
  decide +kernel

/-- CFG and BEGIN are legal in IDLE and DONE, illegal in ACCEPT and SYNTH (also for ConfigurationReadBack). -/
theorem witness_CfgLoadsBus : State.reset.phase = .idle ∧ (inPhase .done cqCfg).phase = .done ∧ accepting.phase = .accept ∧
    (sending [0x03#5] 0).phase = .synth :=
  ⟨rfl, rfl, rfl, rfl⟩

theorem witness_BeginOpensMessage : State.reset.phase = .idle ∧ cfgValid State.reset.cfg = false ∧
    (inPhase .done cqCfg).phase = .done ∧ cfgValid (inPhase .done cqCfg).cfg = true := by
  decide +kernel

/-- Two blocks of different message histories with the same configuration. -/
theorem witness_BeginForgetsPreviousMessage :
    let s := inPhase .idle cqCfg
    let s' := { inPhase .done cqCfg with symq := [0x1B#5], ss := .figures, charIdx := 1 }
    (s.phase = .idle ∨ s.phase = .done) ∧ (s'.phase = .idle ∨ s'.phase = .done) ∧ s.rom = s'.rom ∧
    s.maxSymbols = s'.maxSymbols ∧ s.maxSamples = s'.maxSamples ∧ s.sampling = s'.sampling ∧ s.cfg = s'.cfg ∧
    s.cmdErr = s'.cmdErr ∧ s.capErr = s'.capErr ∧ s.bus = s'.bus ∧ s.schedule = s'.schedule ∧ s.symq ≠ s'.symq :=
  ⟨.inl rfl, .inr rfl, rfl, rfl, rfl, rfl, rfl, rfl, rfl, rfl, rfl, by decide⟩

theorem witness_PushFramesOneCharacter_ignored : { accepting with err := .invalidConfig }.phase = .accept ∧
    { accepting with err := .invalidConfig }.err ≠ .none := by
  decide

theorem witness_PushFramesOneCharacter_unknown : accepting.phase = .accept ∧ accepting.err = .none ∧
    symbolFor accepting.rom 0xE9#21 = none ∧ accepting.cfg.data.skipUnknownChars = false ∧
    (inPhase .accept skipCfg).cfg.data.skipUnknownChars = true := by
  decide +kernel

/-- Room at the boundary: one symbol more fits MAX_SYMBOLS = 1, and not MAX_SYMBOLS = 0. -/
theorem witness_PushFramesOneCharacter_room : symbolFor accepting.rom 0x41#21 = some (0x03#5, .letters) ∧
    { accepting with maxSymbols := some 1 }.roomFor ((shiftFor .letters .letters).1.length + 1) ∧
    ¬{ accepting with maxSymbols := some 0 }.roomFor ((shiftFor .letters .letters).1.length + 1) :=
  ⟨by decide +kernel, fun m h => by cases h; decide, fun h => absurd (h 0 rfl) (by decide)⟩

/-- A character of each kind, for the five rows. -/
theorem witness_ShiftInsertion : accepting.phase = .accept ∧ accepting.err = .none ∧ accepting.roomFor 2 ∧
    symbolFor accepting.rom 0x41#21 = some (0x03#5, .letters) ∧ symbolFor accepting.rom 0x2D#21 = some (0x03#5, .figures) ∧
    symbolFor accepting.rom 0x20#21 = some (0x04#5, .neutral) ∧ accepting.ss = .letters ∧
    { accepting with ss := .figures }.ss = .figures :=
  ⟨rfl, rfl, fun _ h => (by cases h), by decide +kernel, by decide +kernel, by decide +kernel, rfl, rfl⟩

/-- The two failed messages, and a message of one symbol, 7 samples: it fits MAX_SAMPLES = 7 and not MAX_SAMPLES = 6. -/
theorem witness_EndClosesMessage :
    let N := fun s : State => (((s.symq.length : Rat) * (6 + s.cfg.data.stopBitMultiplier) * s.cfg.data.sampleRate
      / s.cfg.data.baudRate) + 1 / 2).floor.toNat
    let s := { accepting with symq := [0x03#5] }
    s.phase = .accept ∧ s.err = .none ∧ { accepting with err := .invalidConfig }.err = .invalidConfig ∧
    { accepting with err := .unsupportedCharacter }.err = .unsupportedCharacter ∧
    (∀ m, { s with maxSamples := some 7 }.maxSamples = some m → N s ≤ m) ∧
    (∃ m, { s with maxSamples := some 6 }.maxSamples = some m ∧ m < N s) :=
  ⟨rfl, rfl, rfl, rfl, fun m h => by cases h; decide +kernel, 6, rfl, by decide +kernel⟩

/-- Every phase of the table, and the block's turn outside SYNTH. -/
theorem witness_CommandPhaseTable : State.reset.phase = .idle ∧ accepting.phase = .accept ∧ (sending [0x03#5] 0).phase = .synth ∧
    (inPhase .done cqCfg).phase = .done ∧ (withTurn accepting).blockNext accepting ∧ CodeTable.wf accepting.rom = true ∧
    accepting.phase ≠ .synth :=
  ⟨rfl, rfl, rfl, rfl, .inr (.inl ⟨[], rfl, rfl⟩), usTty_wf, by decide⟩

/-- An illegal word of each kind: a reserved opcode, and PUSH in IDLE. -/
theorem witness_IllegalCommandFault : (withWord 0x05000000#32 accepting).illegalNext ∧
    (withWord 0x03000041#32 State.reset).illegalNext ∧
    (∃ t, step (withWord 0x03000041#32 State.reset) = .next t ∧ t.cmdErr = true) ∧
    ¬(withWord 0x03000041#32 State.reset).resetNext :=
  ⟨⟨_, _, _, rfl, fun i h => by have hp : decode (.word 0x05000000#32) = .error .reservedOpcode := by decide
                                rw [hp] at h; cases h⟩,
    ⟨_, _, _, rfl, fun i h => by have hp : decode (.word 0x03000041#32) = .ok (.push 0x41#21) := by decide
                                 rw [hp] at h; cases h; rfl⟩,
    stepWith (fun t => t.cmdErr = true) (by decide +kernel), fun ⟨_, _, h⟩ => by cases h⟩

/-- A legal word is none. -/
theorem witness_IllegalCommandFault_legal : ¬(withWord 0x03000041#32 accepting).illegalNext ∧
    ∃ t, step (withWord 0x03000041#32 accepting) = .next t ∧ t.cmdErr = false :=
  ⟨fun ⟨_, _, _, h, hi⟩ => by
      cases h
      exact absurd (hi (.push 0x41#21) (by decide)) (by decide),
    stepWith (fun t => t.cmdErr = false) (by decide +kernel)⟩

theorem witness_CapacityFault_push : ∃ t,
    step (withWord 0x03000041#32 { accepting with maxSymbols := some 0 }) = .next t ∧ t.capErr = true ∧
    ¬(withWord 0x03000041#32 { accepting with maxSymbols := some 0 }).resetNext ∧ accepting.capErr = false := by
  obtain ⟨t, h, hc⟩ := stepWith (s := withWord 0x03000041#32 { accepting with maxSymbols := some 0 })
    (fun t => t.capErr = true) (by decide +kernel)
  exact ⟨t, h, hc, (fun ⟨_, _, h⟩ => by cases h), rfl⟩

theorem witness_CapacityFault_end : ∃ t,
    step (withWord 0x04000000#32 { accepting with maxSamples := some 6, symq := [0x03#5] }) = .next t ∧ t.capErr = true ∧
    accepting.capErr = false := by
  obtain ⟨t, h, hc⟩ := stepWith
    (s := withWord 0x04000000#32 { accepting with maxSamples := some 6, symq := [0x03#5] })
    (fun t => t.capErr = true) (by decide +kernel)
  exact ⟨t, h, hc, rfl⟩

theorem witness_FrameLayout : [0x03#5, 0x1F#5][0]? = some 0x03#5 ∧ [0x03#5, 0x1F#5][1]? = some 0x1F#5 := by
  decide

theorem witness_ElementBoundaries : elemOf cqCfg 14 0 = some 0 ∧ elemOf cqCfg 14 2639 = some 13 ∧ (elements [0x03#5] (3 / 2))[0]? = some ⟨.space, 1⟩ ∧
    (elements [0x03#5] (3 / 2))[6]? = some ⟨.mark, 3 / 2⟩ ∧ cfgValid ⟨true, cqCfg⟩ = true := by
  decide +kernel

theorem witness_NoDrift : cfgValid ⟨true, cqCfg⟩ = true := by decide +kernel

theorem witness_ElementOfSample : cfgValid ⟨true, cqCfg⟩ = true ∧ 0 < messageSamples cqCfg 2 ∧ 2639 < messageSamples cqCfg 2 ∧
    ¬2640 < messageSamples cqCfg 2 := by
  decide +kernel

/-- Text with a skipped character (V-F15). -/
theorem witness_FrameCount : CodeTable.wf usTty = true ∧
    (frameText usTty skipCfg [0x41#21, 0xE9#21, 0x20#21, 0x42#21]).stopped = none ∧
    (frameText usTty skipCfg [0x41#21, 0xE9#21, 0x20#21, 0x42#21]).symbols = [0x03#5, 0x04#5, 0x19#5] := by
  decide +kernel

/-- Every one of the 32 symbols on the line, at its first and at its last element. -/
theorem witness_SymbolSendsOneSample : ∀ v : Sym, encode (decodeSymbol v) = .symbol v ∧
    ∀ k ∈ [0, 6],
      (sending [v] k).phase = .synth ∧ (sending [v] k).nSamp < (sending [v] k).nTotal ∧
      cfgValid (sending [v] k).cfg = true ∧ k < 7 * (sending [v] k).symq.length ∧
      boundary (sending [v] k).cfg.data k ≤ (sending [v] k).nSamp ∧
      (sending [v] k).nSamp < boundary (sending [v] k).cfg.data (k + 1) ∧ (sending [v] k).symq[k / 7]? = some v ∧
      (elements (sending [v] k).symq (sending [v] k).cfg.data.stopBitMultiplier)[k]? =
        some ⟨if k = 0 then .space else .mark, 1⟩ := by
  decide +kernel

theorem witness_SymbolSendsOneSample_origin : (sending [0x03#5] 0).Inv ∧ (sending [0x03#5] 0).phase = .synth ∧
    (sending [0x03#5] 0).nSamp = 0 :=
  ⟨sending_inv, rfl, rfl⟩

/-- A symbol off the line three ways: no message sent, all samples made, another symbol's turn. -/
theorem witness_SymbolOffLineRefused : encode .ita2ADash = .symbol 0x03#5 ∧ accepting.phase ≠ .synth ∧
    (sending [0x03#5] 7).nTotal ≤ (sending [0x03#5] 7).nSamp ∧ (sending [0x04#5] 0).onLine ≠ some 0x03#5 := by
  decide +kernel

theorem witness_SynthStep : (accepting.Inv ∧ accepting.blockNext accepting ∧ accepting.phase ≠ .synth) ∧
    ((sending [] 0).Inv ∧ (sending [] 0).blockNext (sending [] 0) ∧ (sending [] 0).phase = .synth ∧
      (sending [] 0).nSamp = (sending [] 0).nTotal) ∧
    ((withTurn (sending [0x03#5] 0)).Inv ∧ (withTurn (sending [0x03#5] 0)).blockNext (sending [0x03#5] 0) ∧
      (sending [0x03#5] 0).phase = .synth ∧ (sending [0x03#5] 0).nSamp ≠ (sending [0x03#5] 0).nTotal) :=
  ⟨⟨accepting_inv, .inl ⟨rfl, rfl⟩, by decide⟩, ⟨sendingNothing_inv, .inl ⟨rfl, rfl⟩, rfl, rfl⟩,
    withTurn_inv sending_inv, .inr (.inl ⟨[], rfl, rfl⟩), rfl, by decide⟩

theorem witness_PhaseContinuity : (sending [0x03#5] 0).Inv ∧ (sending [0x03#5] 0).phase = .synth := ⟨sending_inv, rfl⟩

theorem witness_SampleBounds : (0 : Rat) ≤ 4 / 5 := by decide +kernel

theorem witness_FloatSampleAccuracy : (sending [0x03#5] 0).Inv ∧ (sending [0x03#5] 0).blockNext (sending [0x03#5] 0) ∧
    (sending [0x03#5] 0).phase = .synth ∧ (sending [0x03#5] 0).nSamp ≠ (sending [0x03#5] 0).nTotal ∧
    (sending [0x03#5] 0).cfg.data.outputFormat = .float :=
  ⟨sending_inv, .inl ⟨rfl, rfl⟩, rfl, by decide, rfl⟩

/-- A tie, 0.5, and a value with one nearest integer, 0.25 (V-S7). -/
theorem witness_OutputConversion : FloatVal.val (double 0x3FE0000000000000#64) = some (1 / 2) ∧
    |(1 / 2 : Rat) * 32767 - ((16384 : Int) : Rat)| = 1 / 2 ∧ |(1 / 2 : Rat) * 32767| ≤ |((16384 : Int) : Rat)| ∧
    FloatVal.val (double 0x3FD0000000000000#64) = some (1 / 4) ∧ |(1 / 4 : Rat) * 32767 - ((8192 : Int) : Rat)| < 1 / 2 := by
  decide +kernel

theorem witness_ResetInput : CodeTable.wf accepting.rom = true ∧
    { accepting with schedule := [.reset cqCfg] }.schedule = .reset cqCfg :: [] :=
  ⟨usTty_wf, rfl⟩

theorem witness_StepKeepsInvariant : accepting.Inv ∧ ∃ t, step accepting = .next t ∧ t.phase = .accept :=
  ⟨accepting_inv, stepWith (fun t => t.phase = .accept) (by decide +kernel)⟩

theorem witness_EveryStepCompletes : accepting.Inv ∧ (withTurn (sending [0x03#5] 0)).Inv :=
  ⟨accepting_inv, withTurn_inv sending_inv⟩

theorem witness_ReadsPastTheEndStuck : (sending [0x03#5] 0).symq[0]? = some 0x03#5 ∧ (sending [0x03#5] 0).symq.length ≤ 1 ∧
    { accepting with warn := [⟨0, 0xE9#21⟩] }.warn[0]? = some ⟨0, 0xE9#21⟩ ∧ accepting.warn.length ≤ 0 ∧
    { accepting with outbuf := [.int16 0] }.outbuf[0]? = some (.int16 0) ∧ accepting.outbuf.length ≤ 0 := by
  decide +kernel

/-- The three moves of a command that change PHASE, and the block's. -/
theorem witness_PhaseTransitions :
    (∃ t, step (withWord 0x02000000#32 State.reset) = .next t ∧ t.phase = .accept) ∧
    (∃ t, step (withWord 0x04000000#32 accepting) = .next t ∧ t.phase = .synth) ∧
    (∃ t, step (withWord 0x04000000#32 { accepting with err := .invalidConfig }) = .next t ∧ t.phase = .done) ∧
    (∃ t, step (sending [] 0) = .next t ∧ t.phase = .done) ∧
    (∃ t, step { accepting with schedule := [.reset cqCfg] } = .next t ∧ t.phase = .idle) :=
  ⟨stepWith (fun t => t.phase = .accept) (by decide +kernel), stepWith (fun t => t.phase = .synth) (by decide +kernel),
    stepWith (fun t => t.phase = .done) (by decide +kernel), stepWith (fun t => t.phase = .done) (by decide +kernel),
    stepWith (fun t => t.phase = .idle) (by decide +kernel)⟩

theorem witness_FaultBitsSticky :
    (¬{ accepting with cmdErr := true, capErr := true }.resetNext ∧
      ∃ t, step { accepting with cmdErr := true, capErr := true } = .next t ∧ t.capErr = true) ∧
    ({ accepting with cmdErr := true, schedule := [.reset cqCfg] }.resetNext ∧
      ∃ t, step { accepting with cmdErr := true, schedule := [.reset cqCfg] } = .next t ∧ t.cmdErr = false) :=
  ⟨⟨fun ⟨_, _, h⟩ => (by cases h), stepWith (fun t => t.capErr = true) (by decide +kernel)⟩,
    ⟨_, _, rfl⟩, stepWith (fun t => t.cmdErr = false) (by decide +kernel)⟩

theorem witness_RomImmutable : ∃ t, step (withWord 0x02000000#32 State.reset) = .next t ∧ t.rom = usTty :=
  stepWith (fun t => t.rom = usTty) (by decide +kernel)

theorem witness_ConfigurationFixedInMessage : (withWord 0x01000000#32 accepting).phase = .accept ∧
    (withWord 0x01000000#32 accepting).nextCommand = some .cfg ∧ ¬(withWord 0x01000000#32 accepting).resetNext ∧
    (∃ t, step (withWord 0x01000000#32 accepting) = .next t ∧ t.cmdErr = true) ∧
    (∃ t, step (withWord 0x01000000#32 (sending [0x03#5] 0)) = .next t ∧ t.cmdErr = true) :=
  ⟨rfl, by decide, fun ⟨_, _, h⟩ => (by cases h), stepWith (fun t => t.cmdErr = true) (by decide +kernel),
    stepWith (fun t => t.cmdErr = true) (by decide +kernel)⟩

/-- An append, a BEGIN, the END of a failed message, a reset, a turn of the block. -/
theorem witness_QueuesAppendOnly :
    (∃ t, step (withWord 0x03000041#32 accepting) = .next t ∧ t.symq = [0x03#5]) ∧
    ((withWord 0x02000000#32 (inPhase .done cqCfg)).nextCommand = some .beginMsg ∧
      ∃ t, step (withWord 0x02000000#32 (inPhase .done cqCfg)) = .next t ∧ t.phase = .accept) ∧
    (∃ t, step (withWord 0x04000000#32 { accepting with err := .unsupportedCharacter, symq := [0x03#5] }) = .next t ∧
      t.symq = []) ∧
    { accepting with schedule := [.reset cqCfg] }.resetNext ∧ (withTurn (sending [0x03#5] 0)).blockNext (sending [0x03#5] 0) :=
  ⟨stepWith (fun t => t.symq = [0x03#5]) (by decide +kernel),
    ⟨by decide, stepWith (fun t => t.phase = .accept) (by decide +kernel)⟩,
    stepWith (fun t => t.symq = []) (by decide +kernel), ⟨_, _, rfl⟩, .inr (.inl ⟨[], rfl, rfl⟩)⟩

/-- SS changed by a PUSH, by BEGIN and by reset. -/
theorem witness_ShiftStateWriters :
    (∃ t, step (withWord 0x03000031#32 accepting) = .next t ∧ t.ss ≠ accepting.ss) ∧
    (∃ t, step (withWord 0x02000000#32 { inPhase .done cqCfg with ss := .figures }) = .next t ∧ t.ss ≠ .figures) ∧
    (∃ t, step { accepting with ss := .figures, schedule := [.reset cqCfg] } = .next t ∧ t.ss ≠ .figures) :=
  ⟨stepWith (fun t => t.ss ≠ accepting.ss) (by decide +kernel), stepWith (fun t => t.ss ≠ .figures) (by decide +kernel),
    stepWith (fun t => t.ss ≠ .figures) (by decide +kernel)⟩

theorem witness_FirstErrorLatched :
    let s := withWord 0x030000FC#32 { accepting with err := .unsupportedCharacter, errChar := 0xE9#21, charIdx := 1 }
    (∃ t, step s = .next t ∧ t.errChar = 0xE9#21) ∧ s.err ≠ .none ∧ ¬s.resetNext ∧
    ¬(s.nextCommand = some .beginMsg ∧ s.phase = .done) ∧ s.phase ≠ .idle :=
  ⟨stepWith (fun t => t.errChar = 0xE9#21) (by decide +kernel), by decide, fun ⟨_, _, h⟩ => (by cases h),
    fun h => absurd h.2 (by decide), by decide⟩

theorem witness_ResultKeptUntilBegin :
    let s := withWord 0x01000000#32 (inPhase .done cqCfg)
    (∃ t, step s = .next t ∧ t.result = .ok) ∧ s.phase = .done ∧ ¬s.resetNext ∧ s.nextCommand ≠ some .beginMsg :=
  ⟨stepWith (fun t => t.result = .ok) (by decide +kernel), rfl, fun ⟨_, _, h⟩ => (by cases h), by decide⟩

/-- A quiet host and a waiting one. -/
theorem witness_SynthesisTerminates : (sending [0x03#5] 0).Inv ∧ (sending [0x03#5] 0).phase = .synth ∧
    (sending [0x03#5] 0).schedule = [] ∧ 7 ≤ (sending [0x03#5] 0).nTotal - (sending [0x03#5] 0).nSamp ∧
    (waiting (sending [0x03#5] 0)).Inv ∧ ∃ rest, (waiting (sending [0x03#5] 0)).schedule = .wait :: rest :=
  ⟨sending_inv, rfl, rfl, by decide, { sending_inv with }, _, rfl⟩

/-- The three results of ENCODE, and a text over MAX_SYMBOLS, which the statement leaves out as R123 does. -/
theorem witness_BlockComputesEncode :
    let s := { State.reset with schedule := callEvents testCfg [0x41#21], maxSymbols := some 1, maxSamples := some 7 }
    CodeTable.wf s.rom = true ∧ s.phase = .idle ∧ s.cmdErr = false ∧ s.capErr = false ∧ encodeFits s testCfg [0x41#21] = true ∧
    encodeFits s testCfg [0xE9#21] = true ∧ encodeFits s badCfg [0x41#21] = true ∧ encodeFits s testCfg [0x31#21] = false ∧
    (frameText usTty testCfg [0x41#21]).stopped = none ∧ (frameText usTty testCfg [0xE9#21]).stopped = some (0, 0xE9#21) ∧
    cfgValid ⟨true, badCfg⟩ = false := by
  decide +kernel

/-- A host that waits in each phase. -/
theorem witness_SendExpansion : CodeTable.wf (waiting accepting).rom = true ∧
    (waiting accepting).schedule = .wait :: [.command 0x02000000#32 testCfg] ∧ (waiting State.reset).phase = .idle ∧
    (waiting accepting).phase = .accept ∧ (waiting (inPhase .done cqCfg)).phase = .done ∧
    (waiting (sending [0x03#5] 0)).phase = .synth ∧
    ∃ t, step (waiting (sending [0x03#5] 0)) = .next t ∧ t.nSamp = 1 :=
  ⟨usTty_wf, rfl, rfl, rfl, rfl, rfl, stepWith (fun t => t.nSamp = 1) (by decide +kernel)⟩

/-- An instance that steps, one that is refused, and a position with none. -/
theorem witness_InstancesIndependent : ∃ t, step (withWord 0x02000000#32 State.reset) = .next t ∧
    stepInstance 0 [withWord 0x02000000#32 State.reset, accepting] = .next [t, accepting] ∧ (1 : Nat) ≠ 0 ∧
    refusal (step (withRom (spoilt 1 0x65#21))) = some .illegalCodeTable ∧ [accepting][1]? = none := by
  obtain ⟨t, h, -⟩ := stepWith (s := withWord 0x02000000#32 State.reset) (fun t => t.phase = .accept) (by decide +kernel)
  exact ⟨t, h, by simp [stepInstance, h], by decide, by decide +kernel, rfl⟩

end Sys2Proof.Tests
end

section
/-! Proofs for the family 00_scope.md: what a step fetches is what `exec` runs. -/

namespace Sys2Proof.Machine

/-- Taking a move from the schedule leaves the line as it was. -/
@[simp] theorem takeEvent_onLine (rest : List Event) (s : State) : (takeEvent rest s).onLine = s.onLine := rfl

/-- A command word at the head of the schedule is run, its bus value sampled (30_encoding.md R47). -/
theorem step_eq_runCommand {s : State} {w : Word} {d : CfgData} {rest : List Event} (h : CodeTable.wf s.rom = true)
    (hs : s.schedule = .command w d :: rest) : step s = runCommand w (takeCommand d rest s) := by
  rw [step_eq_runSchedule h, runSchedule, hs]

/-- A word that decodes is run as the command it encodes. -/
theorem runCommand_of_decode {w : Word} {i : Instr} (h : decode (.word w) = .ok i) (s : State) :
    runCommand w s = exec i s := by
  rw [runCommand, h]

/-- A SYNTH step with samples left runs the symbol on the line (43_encoder.md R122). -/
theorem blockTurn_of_onLine {s : State} {v : Sym} (hp : s.phase = .synth) (hn : s.nSamp ≠ s.nTotal)
    (hv : s.onLine = some v) : blockTurn s = exec (decodeSymbol v) s := by
  simp only [blockTurn, if_pos hp, if_neg hn, hv, runSymbol]

/-- What a symbol decodes to is the instruction of its value, and never an error (30_encoding.md R50). -/
theorem decode_symbol_iff (v : Sym) (i : Instr) : decode (.symbol v) = .ok i ↔ decodeSymbol v = i := by
  rw [decode, Except.ok.injEq]

/-- Settles O6: a scheduled word goes through `runCommand`, a block's turn through `blockTurn`, which sees the same line and
counters after the fetch as before it. -/
theorem stepRunsDecoded : Obligations.StepRunsDecoded := by
  constructor
  · intro s w d rest i hr hs hd
    rw [step_eq_runCommand hr hs, runCommand_of_decode hd, takeCommand]
  · intro s s' v i hr hb hp hn hv hd
    obtain rfl := (decode_symbol_iff v i).mp hd
    rw [step_eq_blockTurn hr hb]
    obtain ⟨rest, rfl⟩ := hb.eq_takeEvent
    exact blockTurn_of_onLine (by simpa using hp) (by simpa using hn) (by simpa using hv)

end Sys2Proof.Machine
end

section
/-! Proofs for the family 10_state.md: what every step keeps of the state, and what its ports read. -/

namespace Sys2Proof.Machine

/-! ### The invariant, operation by operation -/

@[simp] theorem exceeds_zero (m : Option Nat) : exceeds 0 m = false := by
  cases m <;> simp [exceeds]

/-- RESULT takes NONE from ERR only where no error is latched (43_encoder.md R121). -/
@[simp] theorem toResult_eq_none (e : ErrCode) : e.toResult = .none ↔ e = .none := by
  cases e <;> simp [ErrCode.toResult]

/-- The registers of a block just reset meet the invariant: all but the legal table is at a value that asks nothing. -/
theorem inv_applyReset {s : State} (hr : CodeTable.wf s.rom = true) (d : CfgData) : (applyReset d s).Inv := by
  constructor <;> simp [hr]

namespace State.Inv

variable {s : State}

/-- No clause reads the schedule. -/
theorem takeEvent (hi : s.Inv) (rest : List Event) : (takeEvent rest s).Inv := { hi with }

/-- No clause reads the bus. -/
theorem takeCommand (hi : s.Inv) (d : CfgData) (rest : List Event) : (takeCommand d rest s).Inv := { hi with }

/-- No clause reads the fault bits. -/
theorem raiseFault (hi : s.Inv) (k : FaultKind) : (raiseFault k s).Inv := by
  cases k <;> exact { hi with }

/-- In IDLE and DONE no clause reads CFG (20_memory.md R44). -/
theorem loadCfg (hi : s.Inv) (hp : s.phase = .idle ∨ s.phase = .done) (d : CfgData) : (loadCfg d s).Inv :=
  have hs : s.phase ≠ .synth := by rintro h; simp [h] at hp
  { hi with
    synth_ok := fun h => absurd h hs
    cfg_checked := fun h => by rcases hp with hp | hp <;> simp [hp] at h
    synth_samples := fun h => absurd h hs }

/-- BEGIN clears the message's registers, and its latch is the check of CFG (43_encoder.md R119). -/
theorem openMessage (hi : s.Inv) : (openMessage s).Inv := by
  have hr := hi.rom_legal
  cases hc : cfgValid s.cfg <;> constructor <;> simp [hr, hc]

/-- A character counted without further effect (41_framer.md R95). -/
theorem countChar (hi : s.Inv) (hp : s.phase = .accept) : (countChar s).Inv :=
  { hi with
    err_index_counted := fun h => Nat.lt_succ_of_lt (hi.err_index_counted h)
    warn_order := ⟨hi.warn_order.1, fun r hr => Nat.lt_succ_of_lt (hi.warn_order.2 r hr)⟩
    idle_clear := fun h => by simp [hp] at h }

/-- A skipped character's index is above those already in WARN (10_state.md R27; 41_framer.md R98). -/
theorem appendWarning (hi : s.Inv) (hp : s.phase = .accept) (he : s.err = .none) (c : Char21) :
    (appendWarning s.charIdx c (Machine.countChar s)).Inv := by
  obtain ⟨hsorted, hbelow⟩ := hi.warn_order
  exact
    { hi.countChar hp with
      warn_order := by
        constructor
        · simpa [List.pairwise_append, hsorted] using hbelow
        · simpa [or_imp, forall_and] using fun r hr => Nat.lt_succ_of_lt (hbelow r hr)
      idle_clear := fun h => by simp [hp] at h
      invalid_clear := fun h => by simp [he] at h }

/-- The latched character was counted; the message's configuration was checked before (41_framer.md R99). -/
theorem latchUnsupported (hi : s.Inv) (hp : s.phase = .accept) (he : s.err = .none) (c : Char21) :
    (latchUnsupported s.charIdx c (Machine.countChar s)).Inv :=
  have hc := hi.cfg_checked (.inl hp)
  { hi.countChar hp with
    err_info := fun h => by simp at h
    err_index_counted := fun _ => Nat.lt_succ_self _
    idle_clear := fun h => by simp [hp] at h
    synth_ok := fun h => by simp [hp] at h
    cfg_checked := fun _ => by simpa [he] using hc
    done_result := fun h => by simp [hp] at h
    ss_last := fun _ => hi.ss_last (.inr he)
    invalid_clear := fun h => by simp at h }

end State.Inv

/-- SS follows what `shiftFor` puts before a character that is no shift symbol (41_framer.md R96). -/
theorem lastShift_append_shiftFor (q : List Sym) (req : ReqShift) {v : Sym} (hv : v ≠ figs ∧ v ≠ ltrs) :
    lastShift (q ++ ((shiftFor req (lastShift q)).1 ++ [v])) = (shiftFor req (lastShift q)).2 := by
  rw [← List.append_assoc, lastShift_append_plain _ hv]
  rcases shiftFor_cases req (lastShift q) with ⟨h1, h2⟩ | ⟨h1, h2, -⟩ | ⟨h1, h2, -⟩ <;> rw [h1, h2]
  · rw [List.append_nil]
  · exact lastShift_append_shift q (.inr rfl)
  · exact lastShift_append_shift q (.inl rfl)

namespace State.Inv

variable {s : State}

/-- Symbols framed within the capacity, the shift first where one is due (41_framer.md R96). -/
theorem appendSymbols (hi : s.Inv) (hp : s.phase = .accept) (he : s.err = .none) {c : Char21} {v : Sym}
    {req : ReqShift} (hf : symbolFor s.rom c = some (v, req))
    (hx : exceeds (s.symq.length + ((shiftFor req s.ss).1 ++ [v]).length) s.maxSymbols = false) :
    (appendSymbols ((shiftFor req s.ss).1 ++ [v]) (shiftFor req s.ss).2 (Machine.countChar s)).Inv :=
  have hss := hi.ss_last (.inr he)
  { hi.countChar hp with
    symq_capacity := by simpa using hx
    idle_clear := fun h => by simp [hp] at h
    synth_ok := fun h => by simp [hp] at h
    done_result := fun h => by simp [hp] at h
    ss_last := fun _ => by
      have := lastShift_append_shiftFor s.symq req (symbolFor_not_shift hi.rom_legal hf)
      simpa [← hss] using this.symm
    invalid_clear := fun h => by simp [he] at h
    synth_samples := fun h => by simp [hp] at h }

/-- FRAME_CHAR keeps the invariant in each of its cases (41_framer.md R95). -/
theorem frameChar (hi : s.Inv) (hp : s.phase = .accept) (c : Char21) : (frameChar c s).Inv := by
  rcases frameChar_cases c s with ⟨-, e⟩ | ⟨he, -, -, e⟩ | ⟨he, -, -, e⟩ | ⟨v, req, -, -, -, e⟩ |
    ⟨v, req, he, hf, hx, e⟩ <;> rw [e]
  · exact hi.countChar hp
  · exact hi.appendWarning hp he c
  · exact hi.latchUnsupported hp he c
  · exact (hi.countChar hp).raiseFault .capacity
  · exact hi.appendSymbols hp he hf hx

/-- Before END no sample was asked for or made (43_encoder.md R119). -/
theorem nothing_made (hi : s.Inv) (hp : s.phase = .accept) :
    s.nTotal = 0 ∧ s.nSamp = 0 ∧ s.theta = 0 ∧ s.outbuf = [] := by
  obtain ⟨hn, hθ⟩ := hi.accept_clear hp
  have hk : s.nSamp = 0 := Nat.le_zero.mp (hn ▸ hi.nSamp_le)
  exact ⟨hn, hk, hθ, List.eq_nil_of_length_eq_zero (hi.outbuf_length.trans hk)⟩

/-- END of a failed message (60_exceptions.md R133). -/
theorem closeFailed (hi : s.Inv) (hp : s.phase = .accept) (he : s.err ≠ .none) : (closeFailed s).Inv := by
  obtain ⟨hn, -, hθ, -⟩ := hi.nothing_made hp
  exact
    { hi with
      result_iff_done := by simpa using he
      symq_capacity := by simp
      idle_clear := fun h => by simp at h
      accept_clear := fun h => by simp at h
      synth_ok := fun h => by simp at h
      cfg_checked := fun h => by simp at h
      done_result := fun _ => ⟨fun _ => ⟨rfl, rfl, hn, hθ⟩, fun h => absurd h he⟩
      ss_last := fun h => by simp [he] at h
      invalid_clear := fun h => ⟨rfl, (hi.invalid_clear h).2⟩
      synth_samples := fun h => by simp at h }

/-- END of a good message that fits (43_encoder.md R121): synthesis starts with no sample made. -/
theorem startSynth (hi : s.Inv) (hp : s.phase = .accept) (he : s.err = .none)
    (hx : exceeds (messageSamples s.cfg.data s.symq.length) s.maxSamples = false) :
    (startSynth (messageSamples s.cfg.data s.symq.length) s).Inv := by
  obtain ⟨-, -, hθ, hout⟩ := hi.nothing_made hp
  exact
    { hi with
      result_iff_done := by simpa [hp] using hi.result_iff_done
      nSamp_le := Nat.zero_le _
      outbuf_length := by simp [hout]
      samples_capacity := hx
      idle_clear := fun h => by simp at h
      accept_clear := fun h => by simp at h
      synth_ok := fun _ => ⟨he, rfl⟩
      cfg_checked := fun _ => hi.cfg_checked (.inl hp)
      done_result := fun h => by simp at h
      ss_last := fun _ => hi.ss_last (.inr he)
      synth_samples := fun _ => by simp [hθ, hout, phaseAt] }

/-- END keeps the invariant in each of its cases (43_encoder.md R121). -/
theorem closeMessage (hi : s.Inv) (hp : s.phase = .accept) : (closeMessage s).Inv := by
  rcases closeMessage_cases s with ⟨he, e⟩ | ⟨-, -, e⟩ | ⟨he, hx, e⟩ <;> rw [e]
  · exact hi.closeFailed hp he
  · exact hi.raiseFault .capacity
  · exact hi.startSynth hp he hx

/-- The last SYNTH step: all samples are made (43_encoder.md R122). -/
theorem finishMessage (hi : s.Inv) (hp : s.phase = .synth) (hn : s.nSamp = s.nTotal) : (finishMessage s).Inv :=
  have he := (hi.synth_ok hp).1
  { hi with
    result_iff_done := by simp
    idle_clear := fun h => by simp at h
    accept_clear := fun h => by simp at h
    synth_ok := fun h => by simp at h
    cfg_checked := fun h => by simp at h
    done_result := fun _ => ⟨fun h => absurd he h, fun _ => ⟨rfl, hn⟩⟩
    ss_last := fun _ => hi.ss_last (.inr he)
    synth_samples := fun h => by simp at h }

/-- A SYNTH step makes sample NSAMP of ENCODE's loop and its phase step (42_synthesizer.md R107, R108). -/
theorem emitSample (hi : s.Inv) {k : Nat} {v : Sym} (hk : s.currentElement = some k)
    (hv : s.symq[k / 7]? = some v) : (emitSample (frameTone v (k % 7)) s).Inv := by
  obtain ⟨hp, hlt, -⟩ := currentElement_some hk
  obtain ⟨hθ, hout⟩ := hi.synth_samples hp
  exact
    { hi with
      theta_range := ⟨frac_nonneg _, frac_lt_one _⟩
      nSamp_le := hlt
      outbuf_length := by simp [hi.outbuf_length]
      idle_clear := fun h => by simp [hp] at h
      accept_clear := fun h => by simp [hp] at h
      done_result := fun h => by simp [hp] at h
      synth_samples := fun _ => by
        simp [List.range_succ, phaseAt, toneAt_of_currentElement hk hv, sampleAt, ← hθ, ← hout] }

end State.Inv

/-- Every move keeps the invariant. -/
theorem Move.keeps_inv {s t : State} (hi : s.Inv) (h : Move s t) : t.Inv := by
  cases h with
  | stay s' hb hp ht =>
    obtain ⟨rest, rfl⟩ := hb.eq_takeEvent
    exact ht ▸ hi.takeEvent rest
  | finish s' hb hp hn ht =>
    obtain ⟨rest, rfl⟩ := hb.eq_takeEvent
    exact ht ▸ (hi.takeEvent rest).finishMessage hp hn
  | sample s' hb k v hk hv ht =>
    obtain ⟨rest, rfl⟩ := hb.eq_takeEvent
    exact ht ▸ (hi.takeEvent rest).emitSample hk hv
  | idle rest hs ht => exact ht ▸ hi.takeEvent rest
  | reset d rest hs ht => exact ht ▸ inv_applyReset (s := takeEvent rest s) hi.rom_legal d
  | illegal w d rest hs hd ht => exact ht ▸ (hi.takeCommand d rest).raiseFault .illegalCommand
  | nop w d rest hs hd ht => exact ht ▸ hi.takeCommand d rest
  | cfg w d rest hs hd hp ht => exact ht ▸ (hi.takeCommand d rest).loadCfg hp d
  | beginMsg w d rest hs hd hp ht => exact ht ▸ (hi.takeCommand d rest).openMessage
  | push w d rest c hs hd hp ht => exact ht ▸ (hi.takeCommand d rest).frameChar hp c
  | endMsg w d rest hs hd hp ht => exact ht ▸ (hi.takeCommand d rest).closeMessage hp

/-- Settles O44: the move a step makes keeps the invariant. -/
theorem stepKeepsInvariant : Obligations.StepKeepsInvariant :=
  fun _ _ hi h => (step_cases h).2.keeps_inv hi

/-- Settles O43: State.reset is what the reset input makes of it. -/
theorem resetSatisfiesInvariant : Obligations.ResetSatisfiesInvariant :=
  inv_applyReset (s := State.reset) usTty_wf CfgData.zero

/-! ### What a step may do to PHASE, SS, the error latch and the fault bits -/

/-- A command word at the head of the schedule is the next command. -/
theorem nextCommand_of_decode {s : State} {w : Word} {d : CfgData} {rest : List Event} {i : Instr}
    (hs : s.schedule = .command w d :: rest) (hd : decode (.word w) = .ok i) : s.nextCommand = some i := by
  simp [State.nextCommand, hs, hd, Except.toOption]

/-- `t` has the PHASE, the SS and the error latch of `s`. -/
structure SameControl (s t : State) : Prop where
  phase : t.phase = s.phase
  ss : t.ss = s.ss
  err : t.err = s.err
  errIndex : t.errIndex = s.errIndex
  errChar : t.errChar = s.errChar

/-- The moves by what they may write of these registers: only reset, BEGIN, PUSH, END and the last SYNTH step do. -/
inductive ControlMove (s t : State) : Prop where
  | keep (h : SameControl s t)
  | reset (d : CfgData) (rest : List Event) (hr : s.resetNext) (ht : t = applyReset d (takeEvent rest s))
  | beginMsg (d : CfgData) (rest : List Event) (hc : s.nextCommand = some .beginMsg)
      (hp : s.phase = .idle ∨ s.phase = .done) (ht : t = openMessage (takeCommand d rest s))
  | push (d : CfgData) (rest : List Event) (c : Char21) (hc : s.nextCommand = some (.push c))
      (ht : t = frameChar c (takeCommand d rest s))
  | endMsg (d : CfgData) (rest : List Event) (hc : s.nextCommand = some .endMsg) (hp : s.phase = .accept)
      (ht : t = closeMessage (takeCommand d rest s))
  | finish (s' : State) (rest : List Event) (hb : s.blockNext s') (hp : s.phase = .synth) (hn : s.nSamp = s.nTotal)
      (ht : t = finishMessage (takeEvent rest s))

/-- Every step is one of them. -/
theorem step_control {s t : State} (h : step s = .next t) : ControlMove s t := by
  cases (step_cases h).2 with
  | stay s' hb hp ht =>
    obtain ⟨rest, rfl⟩ := hb.eq_takeEvent
    exact .keep (ht ▸ ⟨rfl, rfl, rfl, rfl, rfl⟩)
  | finish s' hb hp hn ht =>
    obtain ⟨rest, rfl⟩ := hb.eq_takeEvent
    exact .finish _ rest hb hp hn ht
  | sample s' hb k v hk hv ht =>
    obtain ⟨rest, rfl⟩ := hb.eq_takeEvent
    exact .keep (ht ▸ ⟨rfl, rfl, rfl, rfl, rfl⟩)
  | idle rest hs ht => exact .keep (ht ▸ ⟨rfl, rfl, rfl, rfl, rfl⟩)
  | reset d rest hs ht => exact .reset d rest ⟨d, rest, hs⟩ ht
  | illegal w d rest hs hi ht => exact .keep (ht ▸ ⟨rfl, rfl, rfl, rfl, rfl⟩)
  | nop w d rest hs hd ht => exact .keep (ht ▸ ⟨rfl, rfl, rfl, rfl, rfl⟩)
  | cfg w d rest hs hd hp ht => exact .keep (ht ▸ ⟨rfl, rfl, rfl, rfl, rfl⟩)
  | beginMsg w d rest hs hd hp ht => exact .beginMsg d rest (nextCommand_of_decode hs hd) hp ht
  | push w d rest c hs hd hp ht => exact .push d rest c (nextCommand_of_decode hs hd) ht
  | endMsg w d rest hs hd hp ht => exact .endMsg d rest (nextCommand_of_decode hs hd) hp ht

/-- FRAME_CHAR leaves PHASE and the fault bit of the other kind alone, and never clears CAPERR (41_framer.md R95). -/
theorem frameChar_frame (c : Char21) (s : State) :
    (frameChar c s).phase = s.phase ∧ (frameChar c s).cmdErr = s.cmdErr ∧
    (s.capErr = true → (frameChar c s).capErr = true) := by
  rcases frameChar_cases c s with ⟨-, e⟩ | ⟨-, -, -, e⟩ | ⟨-, -, -, e⟩ |
    ⟨v, req, -, -, -, e⟩ | ⟨v, req, -, -, -, e⟩ <;> simp [e]

/-- FRAME_CHAR writes SS only with the shift symbol of its new value before the character (41_framer.md R96). -/
theorem frameChar_ss {c : Char21} {s : State} (h : (frameChar c s).ss ≠ s.ss) :
    ((frameChar c s).ss = .letters ∧ ∃ v, (frameChar c s).symq = s.symq ++ [ltrs, v]) ∨
    ((frameChar c s).ss = .figures ∧ ∃ v, (frameChar c s).symq = s.symq ++ [figs, v]) := by
  rcases frameChar_cases c s with ⟨-, e⟩ | ⟨-, -, -, e⟩ | ⟨-, -, -, e⟩ |
    ⟨v, req, -, -, -, e⟩ | ⟨v, req, -, -, -, e⟩ <;> rw [e] at h ⊢
  case inr.inr.inr.inr =>
    rcases shiftFor_cases req s.ss with ⟨-, h2⟩ | ⟨h1, h2, -⟩ | ⟨h1, h2, -⟩
    · exact absurd h2 h
    · exact .inl ⟨h2, v, by simp [h1]⟩
    · exact .inr ⟨h2, v, by simp [h1]⟩
  all_goals exact absurd rfl h

/-- Once an error is latched FRAME_CHAR only counts (41_framer.md R95). -/
theorem frameChar_of_err {c : Char21} {s : State} (he : s.err ≠ .none) : frameChar c s = countChar s := by
  rw [frameChar, if_pos he]

/-- END writes neither SS nor the error latch and clears no fault bit (43_encoder.md R121). -/
theorem closeMessage_frame (s : State) :
    (closeMessage s).ss = s.ss ∧ (closeMessage s).err = s.err ∧ (closeMessage s).errIndex = s.errIndex ∧
    (closeMessage s).errChar = s.errChar ∧ (closeMessage s).cmdErr = s.cmdErr ∧
    (s.capErr = true → (closeMessage s).capErr = true) := by
  rcases closeMessage_cases s with ⟨-, e⟩ | ⟨-, -, e⟩ | ⟨-, -, e⟩ <;> simp [e]

/-- Settles O49: of the moves that may write PHASE, PUSH keeps it and each of the others has its clause. -/
theorem phaseTransitions : Obligations.PhaseTransitions := by
  intro s t h hne
  cases step_control h with
  | keep hk => exact absurd hk.phase hne
  | reset d rest hr ht => exact .inl ⟨hr, ht ▸ rfl⟩
  | beginMsg d rest hc hp ht => exact .inr (.inl ⟨hp, hc, ht ▸ rfl⟩)
  | push d rest c hc ht => exact absurd (ht ▸ (frameChar_frame c _).1) hne
  | endMsg d rest hc hp ht =>
    refine .inr (.inr (.inl ⟨hp, hc, ?_⟩))
    rcases closeMessage_cases (takeCommand d rest s) with ⟨he, e⟩ | ⟨-, -, e⟩ | ⟨he, -, e⟩ <;> rw [ht, e] at hne ⊢
    · exact .inl ⟨he, rfl⟩
    · exact absurd rfl hne
    · exact .inr ⟨he, rfl⟩
  | finish s' rest hb hp hn ht => exact .inr (.inr (.inr ⟨hp, hn, ⟨s', hb⟩, ht ▸ rfl⟩))

/-- Settles O54: of the moves that may write SS, reset and BEGIN set LETTERS, and a PUSH appends the shift symbol. -/
theorem shiftStateWriters : Obligations.ShiftStateWriters := by
  intro s t h hne
  cases step_control h with
  | keep hk => exact absurd hk.ss hne
  | reset d rest hr ht => exact .inl ⟨ht ▸ rfl, .inl hr⟩
  | beginMsg d rest hc hp ht => exact .inl ⟨ht ▸ rfl, .inr ⟨hc, ht ▸ rfl⟩⟩
  | push d rest c hc ht =>
    subst ht
    refine .inr ⟨⟨c, hc⟩, ?_⟩
    rcases frameChar_ss hne with ⟨hss, v, hq⟩ | ⟨hss, v, hq⟩ <;> rw [hss] <;> exact ⟨v, hq⟩
  | endMsg d rest hc hp ht => exact absurd (ht ▸ (closeMessage_frame _).1) hne
  | finish s' rest hb hp hn ht => exact absurd (ht ▸ rfl) hne

/-- Settles O55: with an error latched a PUSH only counts, and neither END nor the last SYNTH step writes the latch. -/
theorem firstErrorLatched : Obligations.FirstErrorLatched := by
  intro s t h he hr hb hi
  cases step_control h with
  | keep hk => exact ⟨hk.err, hk.errIndex, hk.errChar⟩
  | reset d rest hr' ht => exact absurd hr' hr
  | beginMsg d rest hc hp ht => exact absurd ⟨hc, hp.resolve_left hi⟩ hb
  | push d rest c hc ht =>
    rw [ht, frameChar_of_err (by simpa using he)]
    exact ⟨rfl, rfl, rfl⟩
  | endMsg d rest hc hp ht =>
    obtain ⟨-, h1, h2, h3, -⟩ := closeMessage_frame (takeCommand d rest s)
    exact ht ▸ ⟨h1, h2, h3⟩
  | finish s' rest hb hp hn ht => exact ht ▸ ⟨rfl, rfl, rfl⟩

/-- A scheduled reset is what the next step does (70_reset_and_hazards.md R141). -/
theorem step_eq_applyReset {s : State} {d : CfgData} {rest : List Event} (h : CodeTable.wf s.rom = true)
    (hs : s.schedule = .reset d :: rest) : step s = .next (applyReset d (takeEvent rest s)) := by
  rw [step_eq_runSchedule h, runSchedule, hs]

/-- No move but the reset input clears a fault bit (10_state.md R24). -/
theorem Move.keeps_faults {s t : State} (h : Move s t) (hr : ¬s.resetNext) :
    (s.cmdErr = true → t.cmdErr = true) ∧ (s.capErr = true → t.capErr = true) := by
  cases h with
  | stay s' hb hp ht =>
    obtain ⟨rest, rfl⟩ := hb.eq_takeEvent
    simp [ht]
  | finish s' hb hp hn ht =>
    obtain ⟨rest, rfl⟩ := hb.eq_takeEvent
    simp [ht]
  | sample s' hb k v hk hv ht =>
    obtain ⟨rest, rfl⟩ := hb.eq_takeEvent
    simp [ht]
  | idle rest hs ht => simp [ht]
  | reset d rest hs ht => exact absurd ⟨d, rest, hs⟩ hr
  | illegal w d rest hs hi ht => simp [ht]
  | nop w d rest hs hd ht => simp [ht]
  | cfg w d rest hs hd hp ht => simp [ht]
  | beginMsg w d rest hs hd hp ht => simp [ht]
  | push w d rest c hs hd hp ht =>
    obtain ⟨-, h1, h2⟩ := frameChar_frame c (takeCommand d rest s)
    simpa [ht, h1] using h2
  | endMsg w d rest hs hd hp ht =>
    obtain ⟨-, -, -, -, h1, h2⟩ := closeMessage_frame (takeCommand d rest s)
    simpa [ht, h1] using h2

/-- Settles O50: every other move keeps the bits, and the reset input is the one move that can follow a scheduled reset. -/
theorem faultBitsSticky : Obligations.FaultBitsSticky := by
  intro s t h
  obtain ⟨hw, hm⟩ := step_cases h
  refine ⟨hm.keeps_faults, ?_⟩
  rintro ⟨d, rest, hs⟩
  rw [step_eq_applyReset hw hs, Host.Outcome.next.injEq] at h
  subst h
  exact ⟨rfl, rfl⟩

/-! ### The read ports -/

/-- STATUS read at a bit: the field whose range holds the bit (10_state.md R18). -/
theorem status_getLsbD (s : State) (i : Nat) : s.status.getLsbD i =
    if i < 2 then (Phase.code s.phase).getLsbD i
    else if i < 4 then (ResultCode.code s.result).getLsbD (i - 2)
    else if i < 5 then (BitVec.ofBool s.cmdErr).getLsbD (i - 4)
    else if i < 6 then (BitVec.ofBool s.capErr).getLsbD (i - 5)
    else if i < 7 then s.ss.bit.getLsbD (i - 6)
    else if i < 8 then (BitVec.ofBool s.cfg.valid).getLsbD (i - 7)
    else false := by
  have h4 : i - 2 < 2 ↔ i < 4 := by omega
  have h5 : i - 4 < 1 ↔ i < 5 := by omega
  have h6 : i - 5 < 1 ↔ i < 6 := by omega
  have h7 : i - 6 < 1 ↔ i < 7 := by omega
  have h8 : i - 7 < 1 ↔ i < 8 := by omega
  rw [State.status]
  iterate 6 rw [BitVec.getLsbD_append]
  simp only [Nat.sub_sub, Nat.reduceAdd, h4, h5, h6, h7, h8, BitVec.getLsbD_zero]

/-- STATUS[1:0] is PHASE's code (10_state.md R18). -/
theorem status_phase (s : State) : s.status.extractLsb' 0 2 = Phase.code s.phase := by
  ext i hi
  simp [status_getLsbD, hi]

/-- STATUS[3:2] is RESULT's code (10_state.md R18). -/
theorem status_result (s : State) : s.status.extractLsb' 2 2 = ResultCode.code s.result := by
  ext i hi
  rw [BitVec.getElem_extractLsb', status_getLsbD, if_neg (by omega), if_pos (by omega), Nat.add_sub_cancel_left,
    BitVec.getLsbD_eq_getElem]

/-- STATUS[31:8] is zero (10_state.md R18). -/
theorem status_above (s : State) : s.status.extractLsb' 8 24 = 0#24 := by
  ext i hi
  rw [BitVec.getElem_extractLsb', status_getLsbD]
  iterate 6 rw [if_neg (by omega)]
  simp

/-- Settles O46: the two codes by their fields, the four bits by `status_getLsbD`. -/
theorem statusWord : Obligations.StatusWord := by
  intro s
  refine ⟨?_, ?_, ?_, ?_, ?_, ?_, status_above s, rfl⟩
  · rw [status_phase]
    cases s.phase <;> rfl
  · rw [status_result]
    cases s.result <;> rfl
  · rw [status_getLsbD]
    simp
  · rw [status_getLsbD]
    simp
  · rw [status_getLsbD]
    cases s.ss <;> rfl
  · rw [status_getLsbD]
    simp

/-- A read below the length gives the entry (10_state.md R19). -/
theorem readEntry_some {α : Type} {wrap : α → PortValue} {l : List α} {i : Nat} {x : α} (h : l[i]? = some x) :
    readEntry wrap l i = .ok (wrap x) := by
  rw [readEntry, h]

/-- A read at or past the length is the host error (10_state.md R19). -/
theorem readEntry_past {α : Type} {wrap : α → PortValue} {l : List α} {i : Nat} (h : l.length ≤ i) :
    readEntry wrap l i = .error .readPastEnd := by
  rw [readEntry, List.getElem?_eq_none h]

/-- Settles O47: the three ports are `readEntry` of their sequences. -/
theorem readsPastTheEndStuck : Obligations.ReadsPastTheEndStuck := by
  intro s i
  exact ⟨fun _ => readEntry_some, fun _ => readEntry_some, fun _ => readEntry_some,
    readEntry_past, readEntry_past, readEntry_past⟩

/-- CFG in IDLE or DONE loads the bus (43_encoder.md R117). -/
theorem exec_cfg {s : State} (hp : s.phase = .idle ∨ s.phase = .done) : exec .cfg s = .next (loadCfg s.bus s) := by
  rw [exec, execCfg, inPhases, if_pos (by simpa using hp)]

/-- Settles O48: each CFG port reads the field of the CFG that the command loaded. -/
theorem configurationReadBack : Obligations.ConfigurationReadBack := by
  intro s hp
  exact ⟨loadCfg s.bus s, exec_cfg hp, rfl, rfl, rfl, rfl, rfl, rfl, rfl, rfl, rfl⟩

end Sys2Proof.Machine
end

section
/-! Proofs for the family 20_memory.md: the ROM is fixed, the queues only grow, a finished message stays readable. -/

namespace Sys2Proof.Machine

/-! ### What the block was built with -/

/-- The ROM and the build-time parameters (00_scope.md R6; assumption log 9). -/
def State.build (s : State) : CodeTable × Option Nat × Option Nat × Sampling :=
  (s.rom, s.maxSymbols, s.maxSamples, s.sampling)

theorem frameChar_build (c : Char21) (s : State) : (frameChar c s).build = s.build := by
  rcases frameChar_cases c s with ⟨-, e⟩ | ⟨-, -, -, e⟩ | ⟨-, -, -, e⟩ |
    ⟨v, req, -, -, -, e⟩ | ⟨v, req, -, -, -, e⟩ <;> rw [e] <;> rfl

theorem closeMessage_build (s : State) : (closeMessage s).build = s.build := by
  rcases closeMessage_cases s with ⟨-, e⟩ | ⟨-, -, e⟩ | ⟨-, -, e⟩ <;> rw [e] <;> rfl

/-- No move writes the ROM or a build-time parameter (20_memory.md R35). -/
theorem Move.keeps_build {s t : State} (h : Move s t) : t.build = s.build := by
  cases h with
  | stay s' hb hp ht =>
    obtain ⟨rest, rfl⟩ := hb.eq_takeEvent
    exact ht ▸ rfl
  | finish s' hb hp hn ht =>
    obtain ⟨rest, rfl⟩ := hb.eq_takeEvent
    exact ht ▸ rfl
  | sample s' hb k v hk hv ht =>
    obtain ⟨rest, rfl⟩ := hb.eq_takeEvent
    exact ht ▸ rfl
  | idle rest hs ht => exact ht ▸ rfl
  | reset d rest hs ht => exact ht ▸ rfl
  | illegal w d rest hs hi ht => exact ht ▸ rfl
  | nop w d rest hs hd ht => exact ht ▸ rfl
  | cfg w d rest hs hd hp ht => exact ht ▸ rfl
  | beginMsg w d rest hs hd hp ht => exact ht ▸ rfl
  | push w d rest c hs hd hp ht => exact ht ▸ frameChar_build c (takeCommand d rest s)
  | endMsg w d rest hs hd hp ht => exact ht ▸ closeMessage_build (takeCommand d rest s)

/-- Settles O51: the move a step makes keeps what the block was built with. -/
theorem romImmutable : Obligations.RomImmutable := by
  intro s t h
  simpa [State.build] using (step_cases h).2.keeps_build

/-! ### What a step may do to the message -/

/-- The block's turn takes no command. -/
theorem State.blockNext.nextCommand_eq_none {s s' : State} (h : s.blockNext s') : s.nextCommand = none := by
  rcases h with ⟨hs, -⟩ | ⟨rest, hs, -⟩ | ⟨rest, hs, -⟩ <;> rw [State.nextCommand, hs]

/-- The block's turn is not the reset input. -/
theorem State.blockNext.not_resetNext {s s' : State} (h : s.blockNext s') : ¬s.resetNext := by
  rintro ⟨d, rest, hr⟩
  rcases h with ⟨hs, -⟩ | ⟨rest', hs, -⟩ | ⟨rest', hs, -⟩ <;> rw [hr] at hs <;> cases hs

/-- `t` has the message of `s` as the host reads it: PHASE, RESULT, the three queues and the two error ports. -/
structure SameMessage (s t : State) : Prop where
  phase : t.phase = s.phase
  result : t.result = s.result
  symq : t.symq = s.symq
  warn : t.warn = s.warn
  outbuf : t.outbuf = s.outbuf
  errIndex : t.errIndex = s.errIndex
  errChar : t.errChar = s.errChar

/-- The moves by what they may do to the message: only reset, BEGIN, PUSH, END and the SYNTH step write it. -/
inductive MessageMove (s t : State) : Prop where
  | keep (h : SameMessage s t)
  | reset (d : CfgData) (rest : List Event) (hr : s.resetNext) (ht : t = applyReset d (takeEvent rest s))
  | beginMsg (d : CfgData) (rest : List Event) (hc : s.nextCommand = some .beginMsg)
      (hp : s.phase = .idle ∨ s.phase = .done) (ht : t = openMessage (takeCommand d rest s))
  | push (d : CfgData) (rest : List Event) (c : Char21) (hc : s.nextCommand = some (.push c)) (hp : s.phase = .accept)
      (ht : t = frameChar c (takeCommand d rest s))
  | endMsg (d : CfgData) (rest : List Event) (hc : s.nextCommand = some .endMsg) (hp : s.phase = .accept)
      (ht : t = closeMessage (takeCommand d rest s))
  | sample (s' : State) (rest : List Event) (tone : Tone) (hb : s.blockNext s') (hp : s.phase = .synth)
      (ht : t = emitSample tone (takeEvent rest s))
  | finish (s' : State) (rest : List Event) (hb : s.blockNext s') (hp : s.phase = .synth)
      (ht : t = finishMessage (takeEvent rest s))

/-- Every step is one of them. -/
theorem step_message {s t : State} (h : step s = .next t) : MessageMove s t := by
  cases (step_cases h).2 with
  | stay s' hb hp ht =>
    obtain ⟨rest, rfl⟩ := hb.eq_takeEvent
    exact .keep (ht ▸ ⟨rfl, rfl, rfl, rfl, rfl, rfl, rfl⟩)
  | finish s' hb hp hn ht =>
    obtain ⟨rest, rfl⟩ := hb.eq_takeEvent
    exact .finish _ rest hb hp ht
  | sample s' hb k v hk hv ht =>
    obtain ⟨rest, rfl⟩ := hb.eq_takeEvent
    exact .sample _ rest _ hb (currentElement_some hk).1 ht
  | idle rest hs ht => exact .keep (ht ▸ ⟨rfl, rfl, rfl, rfl, rfl, rfl, rfl⟩)
  | reset d rest hs ht => exact .reset d rest ⟨d, rest, hs⟩ ht
  | illegal w d rest hs hi ht => exact .keep (ht ▸ ⟨rfl, rfl, rfl, rfl, rfl, rfl, rfl⟩)
  | nop w d rest hs hd ht => exact .keep (ht ▸ ⟨rfl, rfl, rfl, rfl, rfl, rfl, rfl⟩)
  | cfg w d rest hs hd hp ht => exact .keep (ht ▸ ⟨rfl, rfl, rfl, rfl, rfl, rfl, rfl⟩)
  | beginMsg w d rest hs hd hp ht => exact .beginMsg d rest (nextCommand_of_decode hs hd) hp ht
  | push w d rest c hs hd hp ht => exact .push d rest c (nextCommand_of_decode hs hd) hp ht
  | endMsg w d rest hs hd hp ht => exact .endMsg d rest (nextCommand_of_decode hs hd) hp ht

/-! ### The queues -/

/-- FRAME_CHAR appends to WARN or to SYMQ, or to neither, and leaves OUTBUF alone (41_framer.md R95). -/
theorem frameChar_queues (c : Char21) (s : State) :
    s.warn <+: (frameChar c s).warn ∧ s.symq <+: (frameChar c s).symq ∧ (frameChar c s).outbuf = s.outbuf := by
  rcases frameChar_cases c s with ⟨-, e⟩ | ⟨-, -, -, e⟩ | ⟨-, -, -, e⟩ |
    ⟨v, req, -, -, -, e⟩ | ⟨v, req, -, -, -, e⟩ <;> simp [e]

/-- END leaves WARN and OUTBUF alone, and empties SYMQ only on a failed message (43_encoder.md R121). -/
theorem closeMessage_queues (s : State) :
    (closeMessage s).warn = s.warn ∧ (closeMessage s).outbuf = s.outbuf ∧
    ((closeMessage s).symq = s.symq ∨ (s.err ≠ .none ∧ (closeMessage s).symq = [])) := by
  rcases closeMessage_cases s with ⟨he, e⟩ | ⟨-, -, e⟩ | ⟨-, -, e⟩ <;> rw [e]
  · exact ⟨rfl, rfl, .inr ⟨he, rfl⟩⟩
  · exact ⟨rfl, rfl, .inl rfl⟩
  · exact ⟨rfl, rfl, .inl rfl⟩

/-- `t` has the queues of `s` with what was appended, or is what the END of a failed message makes of `s`
(20_memory.md R36). -/
def QueuesGrow (s t : State) : Prop :=
  s.warn <+: t.warn ∧ s.outbuf <+: t.outbuf ∧
  (s.symq <+: t.symq ∨ (s.nextCommand = some .endMsg ∧ s.phase = .accept ∧ s.err ≠ .none ∧ t.symq = []))

/-- A move that is neither reset nor a BEGIN which opens a message only appends (20_memory.md R36). -/
theorem MessageMove.queuesGrow {s t : State} (h : MessageMove s t) (hr : ¬s.resetNext)
    (hb : t.phase = s.phase ∨ s.nextCommand ≠ some .beginMsg) : QueuesGrow s t := by
  cases h with
  | keep hk => exact ⟨hk.warn ▸ List.prefix_rfl, hk.outbuf ▸ List.prefix_rfl, .inl (hk.symq ▸ List.prefix_rfl)⟩
  | reset d rest hr' ht => exact absurd hr' hr
  | beginMsg d rest hc hp ht =>
    have hphase : Phase.accept = s.phase := by simpa [hc, ht] using hb
    simp [← hphase] at hp
  | push d rest c hc hp ht =>
    obtain ⟨hw, hq, ho⟩ := frameChar_queues c (takeCommand d rest s)
    exact ht ▸ ⟨hw, ho ▸ List.prefix_rfl, .inl hq⟩
  | endMsg d rest hc hp ht =>
    obtain ⟨hw, ho, hq⟩ := closeMessage_queues (takeCommand d rest s)
    refine ht ▸ ⟨hw ▸ List.prefix_rfl, ho ▸ List.prefix_rfl, ?_⟩
    rcases hq with hq | ⟨he, hq⟩
    · exact .inl (hq ▸ List.prefix_rfl)
    · exact .inr ⟨hc, hp, he, hq⟩
  | sample s' rest tone hb' hp ht => exact ht ▸ ⟨List.prefix_rfl, List.prefix_append _ _, .inl List.prefix_rfl⟩
  | finish s' rest hb' hp ht => exact ht ▸ ⟨List.prefix_rfl, List.prefix_rfl, .inl List.prefix_rfl⟩

/-- A BEGIN that changes PHASE opens a message, its queues empty (43_encoder.md R119). -/
theorem MessageMove.queues_empty_of_begin {s t : State} (h : MessageMove s t) (hc : s.nextCommand = some .beginMsg)
    (hne : t.phase ≠ s.phase) : t.symq = [] ∧ t.warn = [] ∧ t.outbuf = [] := by
  cases h with
  | keep hk => exact absurd hk.phase hne
  | reset d rest hr ht => exact ht ▸ ⟨rfl, rfl, rfl⟩
  | beginMsg d rest hc' hp ht => exact ht ▸ ⟨rfl, rfl, rfl⟩
  | push d rest c hc' hp ht => simp [hc] at hc'
  | endMsg d rest hc' hp ht => simp [hc] at hc'
  | sample s' rest tone hb hp ht => simp [hb.nextCommand_eq_none] at hc
  | finish s' rest hb hp ht => simp [hb.nextCommand_eq_none] at hc

/-- The block's turn never writes SYMQ (43_encoder.md R122). -/
theorem MessageMove.symq_of_blockNext {s s' t : State} (h : MessageMove s t) (hb : s.blockNext s') :
    t.symq = s.symq := by
  have hcmd := hb.nextCommand_eq_none
  cases h with
  | keep hk => exact hk.symq
  | reset d rest hr ht => exact absurd hr hb.not_resetNext
  | beginMsg d rest hc hp ht => simp [hcmd] at hc
  | push d rest c hc hp ht => simp [hcmd] at hc
  | endMsg d rest hc hp ht => simp [hcmd] at hc
  | sample s'' rest tone hb' hp ht => exact ht ▸ rfl
  | finish s'' rest hb' hp ht => exact ht ▸ rfl

/-- Settles O53: its three clauses are the three lemmas above; a scheduled reset is what the step does. -/
theorem queuesAppendOnly : Obligations.QueuesAppendOnly := by
  intro s t h
  have hm := step_message h
  refine ⟨hm.queuesGrow, ?_, fun _ => hm.symq_of_blockNext⟩
  rintro (⟨d, rest, hs⟩ | ⟨hc, hne⟩)
  · rw [step_eq_applyReset (step_cases h).1 hs, Host.Outcome.next.injEq] at h
    exact h ▸ ⟨rfl, rfl, rfl⟩
  · exact hm.queues_empty_of_begin hc hne

/-- In DONE only reset and BEGIN write the message (20_memory.md R43). -/
theorem MessageMove.sameMessage_of_done {s t : State} (h : MessageMove s t) (hd : s.phase = .done)
    (hr : ¬s.resetNext) (hb : s.nextCommand ≠ some .beginMsg) : SameMessage s t := by
  cases h with
  | keep hk => exact hk
  | reset d rest hr' ht => exact absurd hr' hr
  | beginMsg d rest hc hp ht => exact absurd hc hb
  | push d rest c hc hp ht => simp [hd] at hp
  | endMsg d rest hc hp ht => simp [hd] at hp
  | sample s' rest tone hb' hp ht => simp [hd] at hp
  | finish s' rest hb' hp ht => simp [hd] at hp

/-- Settles O56: the step keeps the whole message, and PHASE with it. -/
theorem resultKeptUntilBegin : Obligations.ResultKeptUntilBegin := by
  intro s t h hd hr hb
  obtain ⟨hphase, hresult, hsymq, hwarn, houtbuf, hindex, hchar⟩ := (step_message h).sameMessage_of_done hd hr hb
  exact ⟨hphase.trans hd, hresult, houtbuf, hwarn, hsymq, hindex, hchar⟩

end Sys2Proof.Machine
end

section
/-! Proofs for the family 30_encoding.md: the opcode map, its operands, and the host moves of SEND and WAIT. -/

namespace Sys2Proof.Machine

/-! ### The opcode map -/

/-- A unit of either space decodes to an instruction exactly when it is that instruction's encoding (30_encoding.md R46,
R50). -/
theorem decode_iff (u : Code) (i : Instr) : decode u = .ok i ↔ encode i = u := by
  cases u with
  | word w => exact decode_word_iff w i
  | symbol v =>
    rw [decode_symbol_iff]
    constructor
    · rintro rfl
      exact decode_symbol_encode v
    · exact fun h => (eq_decodeSymbol h).symm

/-- Settles O1: both directions are `decode_iff`. -/
theorem decodeEncodeInverse : Obligations.DecodeEncodeInverse :=
  ⟨fun i => (decode_iff (encode i) i).mpr rfl, fun u i => (decode_iff u i).mp⟩

/-- A command of format Z has the one word that is its match, since its mask has every bit (30_encoding.md R46). -/
theorem decode_word_iff_full_mask {i : Instr} {m : Word} (h : encode i = .word m) (w : Word) :
    decode (.word w) = .ok i ↔ w &&& 0xFFFFFFFF#32 = m := by
  have hmask : w &&& 0xFFFFFFFF#32 = w := BitVec.and_allOnes
  rw [decode_word_iff, h, Code.word.injEq, hmask, eq_comm]

/-- A word is one of PUSH exactly when its bits above the operand are OP = 0x03 and RSV = 000 (30_encoding.md R46). -/
theorem exists_decode_push_iff (w : Word) : (∃ c, decode (.word w) = .ok (.push c)) ↔ w.toNat / 2 ^ 21 = 24 := by
  simp only [decode_word_iff, encode, Code.word.injEq]
  constructor
  · rintro ⟨c, rfl⟩
    have hc := c.isLt
    rw [commandWord_toNat, BitVec.toNat_ofNat]
    omega
  · intro h
    refine ⟨Word.cp w, BitVec.eq_of_toNat_eq ?_⟩
    rw [commandWord_toNat, word_cp_toNat, BitVec.toNat_ofNat]
    omega

/-- PUSH's mask keeps the bits above the operand (30_encoding.md R46). -/
theorem and_pushMask_toNat (w : Word) : (w &&& 0xFFE00000#32).toNat = w.toNat / 2 ^ 21 * 2 ^ 21 := by
  have hmask : w &&& 0xFFE00000#32 = w >>> 21 <<< 21 :=
    (BitVec.shiftLeft_ushiftRight (x := w) (n := 21)).symm
  have hw := w.isLt
  rw [hmask, BitVec.toNat_shiftLeft, BitVec.toNat_ushiftRight, Nat.shiftRight_eq_div_pow, Nat.shiftLeft_eq]
  omega

/-- A word of PUSH by its match and mask (30_encoding.md R46). -/
theorem exists_decode_push_iff_mask (w : Word) :
    (∃ c, decode (.word w) = .ok (.push c)) ↔ w &&& 0xFFE00000#32 = 0x03000000#32 := by
  rw [exists_decode_push_iff, ← BitVec.toNat_inj, and_pushMask_toNat, BitVec.toNat_ofNat]
  omega

/-- Settles O2: four commands of format Z, PUSH, and a decoded word is the encoding of what it decodes to, so no symbol. -/
theorem opcodeMapMatchMask : Obligations.OpcodeMapMatchMask := by
  intro w
  refine ⟨decode_word_iff_full_mask rfl w, decode_word_iff_full_mask rfl w, decode_word_iff_full_mask rfl w,
    exists_decode_push_iff_mask w, decode_word_iff_full_mask rfl w, ?_⟩
  intro i hd v hv
  rw [decode_word_iff, hv] at hd
  cases hd

/-- A word with the number of an instruction's encoding decodes to it. -/
theorem decode_word_of_toNat {i : Instr} {m w : Word} (h : encode i = .word m) (hw : w.toNat = m.toNat) :
    decode (.word w) = .ok i := by
  rw [BitVec.eq_of_toNat_eq hw, decode_word_iff, h]

/-- The words that encode a command: PUSH's, and those of format Z with nothing below OP (30_encoding.md R46). -/
theorem exists_decode_word_iff (w : Word) : (∃ i, decode (.word w) = .ok i) ↔
    w.toNat / 2 ^ 21 = 24 ∨ w.toNat = 0 ∨ w.toNat = 0x01000000 ∨ w.toNat = 0x02000000 ∨ w.toNat = 0x04000000 := by
  constructor
  · rintro ⟨i, hd⟩
    have hw := (decode_word_iff w i).mp hd
    cases i <;> simp only [encode, reduceCtorEq, Code.word.injEq] at hw
    case push c => exact .inl ((exists_decode_push_iff w).mp ⟨c, hd⟩)
    all_goals
      subst hw
      decide
  · rw [← exists_decode_push_iff]
    rintro (⟨c, h⟩ | h | h | h | h)
    · exact ⟨.push c, h⟩
    · exact ⟨.nop, decode_word_of_toNat rfl h⟩
    · exact ⟨.cfg, decode_word_of_toNat rfl h⟩
    · exact ⟨.beginMsg, decode_word_of_toNat rfl h⟩
    · exact ⟨.endMsg, decode_word_of_toNat rfl h⟩

/-- Settles O3: the complement of `exists_decode_word_iff`, on the fields of the word's number. -/
theorem illegalWordsExactly : Obligations.IllegalWordsExactly := by
  intro w
  have hlegal : (∀ i, decode (.word w) ≠ .ok i) ↔ ¬∃ i, decode (.word w) = .ok i := not_exists.symm
  rw [hlegal, exists_decode_word_iff]
  dsimp only
  omega

/-- Settles O5: each unit is evaluated. -/
theorem sampleWordsDecode : Obligations.SampleWordsDecode := by
  unfold Obligations.SampleWordsDecode
  decide

/-! ### Operands -/

/-- PUSH's operand is cut from the low bits of its word (30_encoding.md R47). -/
theorem decode_push_operand {w : Word} {c : Char21} (h : decode (.word w) = .ok (.push c)) : c = Word.cp w := by
  rw [decode_word_iff, encode, Code.word.injEq] at h
  rw [← h, commandWord_cp]

/-- The CFG word loads the bus value that stands beside it, in IDLE and DONE (30_encoding.md R47; 43_encoder.md R117). -/
theorem step_cfg_word {s : State} {d : CfgData} {rest : List Event} (hr : CodeTable.wf s.rom = true)
    (hp : s.phase = .idle ∨ s.phase = .done) (hs : s.schedule = .command 0x01000000#32 d :: rest) :
    step s = .next (loadCfg d (takeCommand d rest s)) := by
  have hd : decode (.word 0x01000000#32) = .ok .cfg := (decode_word_iff _ _).mpr rfl
  rw [step_eq_runCommand hr hs, runCommand_of_decode hd, exec_cfg (by simpa using hp), takeCommand_bus]

/-- Settles O4: PUSH's operand by `decode_push_operand`, CFG's by `step_cfg_word`. -/
theorem operandAssembly : Obligations.OperandAssembly := by
  constructor
  · intro w c h
    rw [decode_push_operand h, word_cp_toNat]
  · intro s d rest hr hp hs
    exact ⟨_, step_cfg_word hr hp hs, rfl, rfl⟩

/-! ### SEND and WAIT -/

/-- A command is issued as its word (30_encoding.md R46). -/
theorem issue_eq {i : Instr} {w : Word} (h : encode i = .word w) (bus : CfgData) : issue i bus = [.command w bus] := by
  simp [issue, wordOf, h]

/-- PUSH's word is its match with the character in the low bits (30_encoding.md R45, R46). -/
theorem encode_push (c : Char21) : encode (.push c) = .word (0x03000000#32 ||| c.zeroExtend 32) := rfl

/-- SEND's moves are BEGIN, one PUSH a character in order, END (30_encoding.md R53). -/
theorem sendEvents_eq (text : List Char21) (bus : CfgData) : sendEvents text bus =
    [.command 0x02000000#32 bus] ++ text.map (fun c => .command (0x03000000#32 ||| c.zeroExtend 32) bus) ++
      [.command 0x04000000#32 bus] := by
  have hpush (c : Char21) := issue_eq (encode_push c) bus
  have hbegin : issue .beginMsg bus = [.command 0x02000000#32 bus] := issue_eq rfl bus
  have hend : issue .endMsg bus = [.command 0x04000000#32 bus] := issue_eq rfl bus
  simp only [sendEvents, hpush, hbegin, hend, List.map_eq_flatMap]

/-- Outside SYNTH the block's turn does nothing (60_exceptions.md R140). -/
theorem blockTurn_of_not_synth {s : State} (hp : s.phase ≠ .synth) : blockTurn s = .next s := by
  rw [blockTurn, if_neg hp]

/-- The block's turn never writes the schedule. -/
theorem blockTurn_schedule {s t : State} (h : blockTurn s = .next t) : t.schedule = s.schedule := by
  unfold blockTurn at h
  split_ifs at h with hp hn
  · cases h
    rfl
  · split at h
    · rw [runSymbol, exec_decodeSymbol] at h
      obtain ⟨k, -, -, rfl⟩ := sendSymbol_next h
      rfl
    · cases h
  · cases h
    rfl

/-- The step of a host that waits outside DONE is the block's turn, the wait still first (30_encoding.md R53). -/
theorem step_wait {s : State} {rest : List Event} (hr : CodeTable.wf s.rom = true) (hs : s.schedule = .wait :: rest)
    (hp : s.phase ≠ .done) : step s = blockTurn s := by
  rw [step_eq_blockTurn hr (.inr (.inr ⟨rest, hs, rfl⟩)), if_neg hp]

/-- In DONE the wait is taken from the schedule and the block does nothing (30_encoding.md R53). -/
theorem step_wait_done {s : State} {rest : List Event} (hr : CodeTable.wf s.rom = true)
    (hs : s.schedule = .wait :: rest) (hp : s.phase = .done) : step s = .next (takeEvent rest s) := by
  rw [step_eq_blockTurn hr (.inr (.inr ⟨rest, hs, rfl⟩)), if_pos hp]
  exact blockTurn_of_not_synth (by simp [hp])

/-- Settles O59: SEND by `sendEvents_eq`; a wait is the block's turn until DONE, which only SYNTH enables. -/
theorem sendExpansion : Obligations.SendExpansion := by
  refine ⟨fun text bus => ⟨sendEvents_eq text bus, rfl⟩, ?_⟩
  intro s rest hr hs
  refine ⟨by rw [State.nextCommand, hs], ?_, ?_, step_wait_done hr hs⟩
  · intro hp
    have hne : s.phase ≠ .done ∧ s.phase ≠ .synth := by rcases hp with hp | hp <;> simp [hp]
    rw [step_wait hr hs hne.1, blockTurn_of_not_synth hne.2]
  · intro hp
    have hstep := step_wait hr hs (by simp [hp])
    refine ⟨hstep, fun t ht => ?_⟩
    rw [hstep] at ht
    exact (blockTurn_schedule ht).trans hs

end Sys2Proof.Machine
end

section
/-! Proofs for the family 40_codetable.md: the checks on a table, the lookups of a legal one, and the rows of US-TTY. -/

namespace Sys2Proof.Machine

/-! ### The checks W1 to W4 and the refusal -/

/-- The two halves that the checks of a table run over are all halves. -/
@[simp] theorem mem_halves (half : ShiftState) : half ∈ [ShiftState.letters, ShiftState.figures] := by
  cases half <;> decide

/-- W1 as a statement (40_codetable.md R57). -/
theorem w1_iff (t : CodeTable) : CodeTable.w1 t = true ↔
    ∀ h a b, (CodeTable.entry t h a).present = true → (CodeTable.entry t h b).present = true →
      (CodeTable.entry t h a).char = (CodeTable.entry t h b).char → a = b := by
  simp only [CodeTable.w1, List.all_eq_true, mem_halves, mem_allSyms, forall_true_left, Bool.or_eq_true,
    Bool.not_eq_true', ← Bool.not_eq_true, Bool.and_eq_true, beq_iff_eq, ← imp_iff_not_or, and_imp]

/-- W2 as a statement, the NEUTRAL codes written out (40_codetable.md R57, R54). -/
theorem w2_iff (t : CodeTable) : CodeTable.w2 t = true ↔
    ∀ a b, (CodeTable.entry t .letters a).present = true → (CodeTable.entry t .figures b).present = true →
      (CodeTable.entry t .letters a).char = (CodeTable.entry t .figures b).char →
      a = b ∧ (a = 0x00#5 ∨ a = 0x02#5 ∨ a = 0x04#5 ∨ a = 0x08#5) := by
  simp only [CodeTable.w2, List.all_eq_true, mem_allSyms, forall_true_left, Bool.or_eq_true, Bool.not_eq_true',
    ← Bool.not_eq_true, Bool.and_eq_true, beq_iff_eq, ← imp_iff_not_or, and_imp, isNeutralCode, or_assoc]

/-- W3 as a statement (40_codetable.md R57). -/
theorem w3_iff (t : CodeTable) : CodeTable.w3 t = true ↔
    ∀ h, (CodeTable.entry t h 0x1B#5).present = false ∧ (CodeTable.entry t h 0x1F#5).present = false := by
  simp only [CodeTable.w3, Bool.and_eq_true, Bool.not_eq_true']
  constructor
  · rintro ⟨⟨⟨hlB, hfB⟩, hlF⟩, hfF⟩ half
    cases half
    · exact ⟨hlB, hlF⟩
    · exact ⟨hfB, hfF⟩
  · exact fun h => ⟨⟨⟨(h .letters).1, (h .figures).1⟩, (h .letters).2⟩, (h .figures).2⟩

/-- W4 as a statement (40_codetable.md R57). -/
theorem w4_iff (t : CodeTable) : CodeTable.w4 t = true ↔
    ∀ h a, (CodeTable.entry t h a).present = true →
      ¬(0x61 ≤ (CodeTable.entry t h a).char.toNat ∧ (CodeTable.entry t h a).char.toNat ≤ 0x7A) := by
  simp only [CodeTable.w4, List.all_eq_true, mem_halves, mem_allSyms, forall_true_left, Bool.not_eq_true',
    ← Bool.not_eq_true, Bool.and_eq_true, decide_eq_true_eq, and_assoc, not_and]

/-- A command is never refused: outside its phases it is an illegal command (43_encoder.md R115). -/
theorem inPhases_ne_refused (legal : List Phase) (s : State) (effect : State → State) (r : Refusal) :
    inPhases legal s effect ≠ .refused r := by
  unfold inPhases
  split <;> simp

/-- A code symbol has one refusal: it is not on the line (43_encoder.md R115; assumption log 1). -/
theorem sendSymbol_refused {v : Sym} {s : State} {r : Refusal} (h : sendSymbol v s = .refused r) :
    r = .symbolNotOnLine := by
  unfold sendSymbol at h
  split at h
  · split_ifs at h
    cases h
    rfl
  · cases h
    rfl

/-- An instruction has no other refusal than the one of a code symbol. -/
theorem exec_refused {i : Instr} {s : State} {r : Refusal} (h : exec i s = .refused r) : r = .symbolNotOnLine := by
  cases he : encode i with
  | symbol v =>
    rw [eq_decodeSymbol he, exec_decodeSymbol] at h
    exact sendSymbol_refused h
  | word w =>
    cases i <;> simp only [encode, reduceCtorEq] at he
    case nop => cases h
    all_goals exact absurd h (inPhases_ne_refused _ _ _ _)

theorem runCommand_refused {w : Word} {s : State} {r : Refusal} (h : runCommand w s = .refused r) :
    r = .symbolNotOnLine := by
  unfold runCommand at h
  split at h
  · exact exec_refused h
  · cases h

theorem blockTurn_refused {s : State} {r : Refusal} (h : blockTurn s = .refused r) : r = .symbolNotOnLine := by
  unfold blockTurn at h
  split_ifs at h
  split at h
  · exact exec_refused h
  · cases h

theorem runSchedule_refused {s : State} {r : Refusal} (h : runSchedule s = .refused r) : r = .symbolNotOnLine := by
  unfold runSchedule at h
  split at h
  · exact blockTurn_refused h
  · cases h
  · exact blockTurn_refused h
  · exact blockTurn_refused h
  · exact runCommand_refused h
  · cases h

/-- A block is refused for its table exactly when the table is not legal (40_codetable.md R57). -/
theorem step_illegalCodeTable_iff (s : State) : step s = .refused .illegalCodeTable ↔ CodeTable.wf s.rom = false := by
  cases hw : CodeTable.wf s.rom with
  | false => simp [step, hw]
  | true =>
    rw [step_eq_runSchedule hw]
    refine iff_of_false (fun h => ?_) (by simp)
    cases runSchedule_refused h

/-- Settles O7: each check as its statement, and the refusal. -/
theorem codeTableChecks : Obligations.CodeTableChecks := by
  refine ⟨fun t => ?_, usTty_wf, step_illegalCodeTable_iff⟩
  rw [CodeTable.wf, Bool.and_eq_true, Bool.and_eq_true, Bool.and_eq_true, w1_iff, w2_iff, w3_iff, w4_iff, and_assoc,
    and_assoc]

/-! ### Case folding -/

theorem fold_of_lower {c : Char21} (h : 0x61 ≤ c.toNat ∧ c.toNat ≤ 0x7A) : fold c = c - 0x20 := if_pos h

theorem fold_of_not_lower {c : Char21} (h : ¬(0x61 ≤ c.toNat ∧ c.toNat ≤ 0x7A)) : fold c = c := if_neg h

theorem fold_toNat_of_lower {c : Char21} (h : 0x61 ≤ c.toNat ∧ c.toNat ≤ 0x7A) :
    (fold c).toNat = c.toNat - 0x20 := by
  have hc : 0x20#21 ≤ c := by
    rw [BitVec.le_def, BitVec.toNat_ofNat]
    omega
  rw [fold_of_lower h]
  exact BitVec.toNat_sub_of_le hc

/-- A folded character is no lowercase letter. -/
theorem fold_not_lower (c : Char21) : ¬(0x61 ≤ (fold c).toNat ∧ (fold c).toNat ≤ 0x7A) := by
  by_cases h : 0x61 ≤ c.toNat ∧ c.toNat ≤ 0x7A
  · rw [fold_toNat_of_lower h]
    omega
  · rwa [fold_of_not_lower h]

/-- Folding twice is folding once. -/
@[simp] theorem fold_fold (c : Char21) : fold (fold c) = fold c := fold_of_not_lower (fold_not_lower c)

/-- Below the letters only the character itself folds to a character. -/
theorem fold_eq_iff_of_lt {x : Char21} (hx : x.toNat < 0x41) (c : Char21) : fold c = x ↔ c = x := by
  by_cases h : 0x61 ≤ c.toNat ∧ c.toNat ≤ 0x7A
  · have hfold := fold_toNat_of_lower h
    refine iff_of_false ?_ ?_ <;> rintro rfl <;> omega
  · rw [fold_of_not_lower h]

/-- The lookup sees the folded character only (40_codetable.md R56). -/
theorem symbolFor_fold (rom : CodeTable) (c : Char21) : symbolFor rom (fold c) = symbolFor rom c := by
  rw [symbolFor, symbolFor, isScalar_fold, fold_fold]

/-- PUSH where it is legal (43_encoder.md R120). -/
theorem exec_push {s : State} (hp : s.phase = .accept) (c : Char21) : exec (.push c) s = .next (frameChar c s) := by
  rw [exec, execPush, inPhases, if_pos (by simp [hp])]

/-- Settles O13: an unmapped character is latched or warned of as it came. -/
theorem foldingIsForLookupOnly : Obligations.FoldingIsForLookupOnly := by
  refine ⟨fun c => ⟨fold_toNat_of_lower, fold_of_not_lower⟩, fun rom c => (symbolFor_fold rom c).symm, ?_⟩
  intro s c hp he hn
  refine ⟨frameChar c s, exec_push hp c, ?_⟩
  rcases frameChar_cases c s with ⟨h, -⟩ | ⟨-, -, hk, e⟩ | ⟨-, -, hk, e⟩ | ⟨v, req, -, h, -⟩ | ⟨v, req, -, h, -⟩
  · exact absurd he h
  · simp [hk, e]
  · simp [hk, e]
  · simp [hn] at h
  · simp [hn] at h

/-! ### The lookups of a legal table -/

/-- The shift a character requires, by the halves that hold it at one code (40_codetable.md R90). -/
def requiredShift : (inLetters inFigures : Bool) → Option ReqShift
  | true, true => some .neutral
  | true, false => some .letters
  | false, true => some .figures
  | false, false => none

/-- In a legal table a character has one code, whichever half is read (W1, W2 of 40_codetable.md R57). -/
theorem code_unique {rom : CodeTable} (hw : CodeTable.wf rom = true) {half half' : ShiftState} {c : Char21}
    {a b : Sym} (ha : holdsChar rom half c a = true) (hb : holdsChar rom half' c b = true) : a = b := by
  cases half <;> cases half'
  · exact wf_w1 hw ha hb
  · exact (wf_w2 hw ha hb).1
  · exact (wf_w2 hw hb ha).1.symm
  · exact wf_w1 hw ha hb

/-- A code that requires a shift is one where a half holds the character. -/
theorem exists_half_of_requiredShift {rom : CodeTable} {c : Char21} {k : Sym} {req : ReqShift}
    (h : requiredShift (holdsChar rom .letters c k) (holdsChar rom .figures c k) = some req) :
    ∃ half, holdsChar rom half c k = true := by
  cases hl : holdsChar rom .letters c k with
  | true => exact ⟨.letters, hl⟩
  | false =>
    cases hf : holdsChar rom .figures c k with
    | true => exact ⟨.figures, hf⟩
    | false => simp [hl, hf, requiredShift] at h

/-- What a successful lookup says of the halves at its code. -/
theorem requiredShift_of_symbolFor {rom : CodeTable} {c : Char21} {k : Sym} {req : ReqShift}
    (h : symbolFor rom c = some (k, req)) :
    requiredShift (holdsChar rom .letters (fold c) k) (holdsChar rom .figures (fold c) k) = some req := by
  rcases (symbolFor_some h).2 with ⟨rfl, hl, hf⟩ | ⟨rfl, hl, hf⟩ | ⟨rfl, hf, hl⟩
  · rw [hl, hf, requiredShift]
  · rw [hl, hf, requiredShift]
  · rw [hl k, hf, requiredShift]

/-- On a legal table the lookup gives a code exactly by what the halves hold at it: the branches of 40_codetable.md R90
have no order that matters, since no other code holds the character. -/
theorem symbolFor_iff {rom : CodeTable} (hw : CodeTable.wf rom = true) (c : Char21) (k : Sym) (req : ReqShift) :
    symbolFor rom c = some (k, req) ↔ isScalar c = true ∧
      requiredShift (holdsChar rom .letters (fold c) k) (holdsChar rom .figures (fold c) k) = some req := by
  refine ⟨fun h => ⟨(symbolFor_some h).1, requiredShift_of_symbolFor h⟩, ?_⟩
  rintro ⟨hs, hr⟩
  obtain ⟨half, hk⟩ := exists_half_of_requiredShift hr
  cases hf : symbolFor rom c with
  | none =>
    rcases symbolFor_none.mp hf with h | h
    · simp [hs] at h
    · simp [h half k] at hk
  | some r =>
    obtain ⟨v, req'⟩ := r
    have hr' := requiredShift_of_symbolFor hf
    obtain ⟨half', hv⟩ := exists_half_of_requiredShift hr'
    obtain rfl := code_unique hw hv hk
    rw [hr, Option.some.injEq] at hr'
    rw [hr']

/-- Scalar values by their range (10_state.md R28). -/
theorem isScalar_iff (c : Char21) : isScalar c = true ↔
    c.toNat < 0xD800 ∨ (0xE000 ≤ c.toNat ∧ c.toNat < 0x110000) := by
  simp only [isScalar, Bool.or_eq_true, Bool.and_eq_true, decide_eq_true_eq]
  omega

/-- Settles O14: one clause for each value of `requiredShift`. -/
theorem forwardLookup : Obligations.ForwardLookup := by
  intro rom c hw
  dsimp only
  simp only [← isScalar_iff, ← holdsChar_iff, symbolFor_iff hw]
  refine ⟨fun k => ?_, fun k => ?_, fun k => ?_, ?_⟩
  case refine_4 => simp [symbolFor_none]
  all_goals
    cases holdsChar rom .letters (fold c) k <;> cases holdsChar rom .figures (fold c) k <;> simp [requiredShift]

/-- The inverse lookup gives what the half asked for holds (40_codetable.md R91). -/
theorem characterFor_iff (rom : CodeTable) (k : Sym) (req : ReqShift) (x : Char21) :
    characterFor rom k req = some x ↔ holdsChar rom (ReqShift.half req) x k = true := by
  simp [characterFor, holdsChar_iff]

/-- The code the lookup gives holds the folded character in the half that the required shift reads (40_codetable.md R94). -/
theorem characterFor_of_symbolFor {rom : CodeTable} {c : Char21} {k : Sym} {req : ReqShift}
    (h : symbolFor rom c = some (k, req)) : characterFor rom k req = some (fold c) := by
  rw [characterFor_iff]
  rcases (symbolFor_some h).2 with ⟨rfl, hl, -⟩ | ⟨rfl, hl, -⟩ | ⟨rfl, hf, -⟩
  · exact hl
  · exact hl
  · exact hf

/-- Settles O16: no check of the table is needed, since the lookup answers a code only where it found the character. -/
theorem lookupRoundTrip : Obligations.LookupRoundTrip :=
  fun _ _ _ _ _ h => characterFor_of_symbolFor h

/-- The LETTERS half is the entries 0 to 31 (20_memory.md R33). -/
theorem romAddr_letters (k : Sym) : romAddr .letters k = BitVec.ofNat 6 k.toNat := by
  revert k
  decide

/-- The FIGURES half is the entries 32 to 63 (20_memory.md R33). -/
theorem romAddr_figures (k : Sym) : romAddr .figures k = BitVec.ofNat 6 (32 + k.toNat) := by
  revert k
  decide

/-- A code that the half read has no entry for has no character (40_codetable.md R91). -/
theorem characterFor_eq_none {rom : CodeTable} {k : Sym} {req : ReqShift}
    (h : (CodeTable.entry rom (ReqShift.half req) k).present = false) : characterFor rom k req = none := by
  simp [characterFor, h]

/-- Settles O15: the entry read by its address; W3 for the shift codes. -/
theorem inverseLookup : Obligations.InverseLookup := by
  refine ⟨fun rom k => ?_, fun rom req hw => ?_⟩
  · rw [← romAddr_letters, ← romAddr_figures]
    exact ⟨rfl, rfl, rfl⟩
  · obtain ⟨hB, hF⟩ := wf_w3 hw (ReqShift.half req)
    exact ⟨characterFor_eq_none hB, characterFor_eq_none hF⟩

/-! ### The supported characters -/

/-- The characters of a table that require a shift, in the order of their codes. -/
def charsRequiring (rom : CodeTable) (req : ReqShift) : List Char21 :=
  allSyms.filterMap fun k => (characterFor rom k req).filter fun x =>
    requiredShift (holdsChar rom .letters x k) (holdsChar rom .figures x k) == some req

/-- A character requires a shift exactly if its folded form is among the characters that do. -/
theorem exists_symbolFor_iff {rom : CodeTable} (hw : CodeTable.wf rom = true) (c : Char21) (req : ReqShift) :
    (∃ k, symbolFor rom c = some (k, req)) ↔ isScalar c = true ∧ fold c ∈ charsRequiring rom req := by
  simp only [charsRequiring, List.mem_filterMap, mem_allSyms, true_and, Option.filter_eq_some_iff, beq_iff_eq]
  constructor
  · rintro ⟨k, h⟩
    have hr := (symbolFor_iff hw c k req).mp h
    exact ⟨hr.1, k, characterFor_of_symbolFor h, hr.2⟩
  · rintro ⟨hs, k, -, hr⟩
    exact ⟨k, (symbolFor_iff hw c k req).mpr ⟨hs, hr⟩⟩

/-- The US-TTY table holds scalar values only. -/
theorem isScalar_of_mem_usTty {req : ReqShift} {x : Char21} (h : x ∈ charsRequiring usTty req) : isScalar x = true := by
  have hall : (charsRequiring usTty req).all isScalar = true := by cases req <;> decide +kernel
  exact List.all_eq_true.mp hall x h

theorem exists_symbolFor_usTty_iff (c : Char21) (req : ReqShift) :
    (∃ k, symbolFor usTty c = some (k, req)) ↔ fold c ∈ charsRequiring usTty req := by
  rw [exists_symbolFor_iff usTty_wf, and_iff_right_iff_imp]
  exact fun h => isScalar_fold c ▸ isScalar_of_mem_usTty h

/-- A character is in a list exactly if its number is among the list's numbers, in any order. -/
theorem mem_iff_toNat_mem {l : List Char21} {codes : List Nat} (hperm : (l.map BitVec.toNat).Perm codes) (x : Char21) :
    x ∈ l ↔ x.toNat ∈ codes := by
  rw [← hperm.mem_iff, List.mem_map_of_injective fun _ _ => BitVec.eq_of_toNat_eq]

/-- The characters that require LETTERS are A to Z (40_codetable.md R93). -/
theorem mem_charsRequiring_letters_iff (x : Char21) :
    x ∈ charsRequiring usTty .letters ↔ 0x41 ≤ x.toNat ∧ x.toNat ≤ 0x5A := by
  have hperm : ((charsRequiring usTty .letters).map BitVec.toNat).Perm (List.range' 0x41 26) := by decide +kernel
  rw [mem_iff_toNat_mem hperm, List.mem_range'_1]
  omega

/-- Characters below the letters are supported as they come: folding neither moves one nor makes one. -/
theorem fold_mem_iff_of_lt {l : List Char21} {codes : List Nat} (hperm : (l.map BitVec.toNat).Perm codes)
    (hlt : ∀ n ∈ codes, n < 0x41) (c : Char21) : fold c ∈ l ↔ c.toNat ∈ codes := by
  have hl (x : Char21) (h : x ∈ l) : x.toNat < 0x41 := hlt _ ((mem_iff_toNat_mem hperm x).mp h)
  have hfold : fold c ∈ l ↔ c ∈ l := by
    constructor <;> intro h
    · rwa [(fold_eq_iff_of_lt (hl _ h) c).mp rfl]
    · rwa [(fold_eq_iff_of_lt (hl _ h) c).mpr rfl]
  rw [hfold, mem_iff_toNat_mem hperm]

/-- Settles O17: the three lists of supported characters of US-TTY, each evaluated from the table. -/
theorem supportedSet : Obligations.SupportedSet := by
  intro c
  simp only [exists_symbolFor_usTty_iff]
  exact ⟨mem_charsRequiring_letters_iff _, fold_mem_iff_of_lt (by decide +kernel) (by decide) c,
    fold_mem_iff_of_lt (by decide +kernel) (by decide) c⟩

/-! ### Tags -/

theorem symbolTag_of_shift {v : Sym} (h : isShiftCode v = true) (half : ShiftState) :
    symbolTag v half = .shift := by
  simp [symbolTag, h]

theorem symbolTag_of_neutral {v : Sym} (h : isNeutralCode v = true) (half : ShiftState) :
    symbolTag v half = .neutral := by
  have hs : isShiftCode v = false := by
    revert v
    decide
  simp [symbolTag, h, hs]

theorem symbolTag_of_plain {v : Sym} (hs : isShiftCode v = false) (hn : isNeutralCode v = false) :
    symbolTag v .letters = .letters ∧ symbolTag v .figures = .figures := by
  simp [symbolTag, hs, hn]

/-- A NEUTRAL code of US-TTY holds one character in both halves (40_codetable.md R58, R60, R62, R66). -/
theorem usTty_entry_of_neutral {k : Sym} (h : isNeutralCode k = true) :
    CodeTable.entry usTty .letters k = CodeTable.entry usTty .figures k := by
  revert k
  decide +kernel

/-- In US-TTY a character is NEUTRAL exactly if its code is. -/
theorem isNeutralCode_of_symbolFor_usTty {c : Char21} {k : Sym} {req : ReqShift}
    (h : symbolFor usTty c = some (k, req)) : isNeutralCode k = true ↔ req = .neutral := by
  have hr := requiredShift_of_symbolFor h
  constructor
  · intro hn
    rw [holdsChar, usTty_entry_of_neutral hn, ← holdsChar] at hr
    cases hf : holdsChar usTty .figures (fold c) k with
    | false => simp [hf, requiredShift] at hr
    | true => simpa [hf, requiredShift, eq_comm] using hr
  · rintro rfl
    rcases (symbolFor_some h).2 with ⟨-, hl, hf⟩ | ⟨hreq, -⟩ | ⟨hreq, -⟩
    · exact (wf_w2 usTty_wf hl hf).2
    · cases hreq
    · cases hreq

/-- Settles O18: the six codes by their class, the others by their half; and a supported character's code is NEUTRAL exactly
if its requirement is. -/
theorem symbolTags : Obligations.SymbolTags := by
  refine ⟨fun half => ?_, fun v hv => ?_, fun c k req h => ?_⟩
  · exact ⟨symbolTag_of_shift rfl half, symbolTag_of_shift rfl half, symbolTag_of_neutral rfl half,
      symbolTag_of_neutral rfl half, symbolTag_of_neutral rfl half, symbolTag_of_neutral rfl half⟩
  · simp only [List.mem_cons, List.not_mem_nil, or_false, not_or] at hv
    exact symbolTag_of_plain (by simp [isShiftCode, hv]) (by simp [isNeutralCode, hv])
  · have hs : isShiftCode k = false := by simpa [isShiftCode, figs, ltrs] using symbolFor_not_shift usTty_wf h
    have hn := isNeutralCode_of_symbolFor_usTty h
    rw [codeSymbolFor, h]
    cases req with
    | letters => simp [ReqShift.half, symbolTag_of_plain hs (by simpa using hn)]
    | figures => simp [ReqShift.half, symbolTag_of_plain hs (by simpa using hn)]
    | neutral => simp [symbolTag_of_neutral (hn.mpr rfl)]

/-! ### The rows of the US-TTY table -/

/-- Room for `k` more symbols is what the capacity check asks (60_exceptions.md R131). -/
theorem exceeds_eq_false_iff_roomFor (s : State) (k : Nat) :
    exceeds (s.symq.length + k) s.maxSymbols = false ↔ s.roomFor k := by
  cases hm : s.maxSymbols <;> simp [exceeds, State.roomFor, hm]

theorem State.roomFor.mono {s : State} {j k : Nat} (h : s.roomFor k) (hjk : j ≤ k) : s.roomFor j :=
  fun m hm => le_trans (Nat.add_le_add_left hjk _) (h m hm)

/-- At most one symbol is emitted before a character (41_framer.md R96). -/
theorem shiftFor_length_le (req : ReqShift) (ss : ShiftState) : (shiftFor req ss).1.length ≤ 1 := by
  rcases shiftFor_cases req ss with ⟨h, -⟩ | ⟨h, -⟩ | ⟨h, -⟩ <;> simp [h]

/-- A PUSH of a supported character in a good message with room (41_framer.md R95). -/
theorem exec_push_of_symbolFor {s : State} {c : Char21} {v : Sym} {req : ReqShift} (hp : s.phase = .accept)
    (he : s.err = .none) (hf : symbolFor s.rom c = some (v, req))
    (hroom : s.roomFor ((shiftFor req s.ss).1.length + 1)) :
    exec (.push c) s =
      .next (appendSymbols ((shiftFor req s.ss).1 ++ [v]) (shiftFor req s.ss).2 (countChar s)) := by
  have hx := (exceeds_eq_false_iff_roomFor s _).mpr hroom
  rw [exec_push hp]
  rcases frameChar_cases c s with ⟨h, -⟩ | ⟨-, h, -⟩ | ⟨-, h, -⟩ | ⟨v', req', -, h, hx', -⟩ | ⟨v', req', -, h, -, e⟩
  · exact absurd he h
  · cases hf.symm.trans h
  · cases hf.symm.trans h
  · cases hf.symm.trans h
    simp [hx] at hx'
  · cases hf.symm.trans h
    rw [e]

/-- A half holds a character at a code by the entry at its address. -/
theorem holdsChar_of_entry {rom : CodeTable} {half : ShiftState} {k : Sym} {x : Char21}
    (h : CodeTable.memRead rom (romAddr half k) = ⟨true, x⟩) (c : Char21) : holdsChar rom half c k = (x == c) := by
  simp [holdsChar, CodeTable.entry, h]

/-- In a legal table the two entries of a code decide the lookup of a character that one of them holds folded. -/
theorem symbolFor_of_entries {rom : CodeTable} (hw : CodeTable.wf rom = true) {code : Sym} {x y c : Char21}
    {req : ReqShift} (hl : CodeTable.memRead rom (BitVec.ofNat 6 code.toNat) = ⟨true, x⟩)
    (hf : CodeTable.memRead rom (BitVec.ofNat 6 (32 + code.toNat)) = ⟨true, y⟩) (hs : isScalar c = true)
    (hr : requiredShift (x == fold c) (y == fold c) = some req) : symbolFor rom c = some (code, req) := by
  rw [← romAddr_letters] at hl
  rw [← romAddr_figures] at hf
  rw [symbolFor_iff hw, holdsChar_of_entry hl, holdsChar_of_entry hf]
  exact ⟨hs, hr⟩

/-- An uppercase letter and its lowercase form fold to the letter (40_codetable.md R56). -/
theorem fold_of_mem_cases {letter c : Char21} (h : 0x41 ≤ letter.toNat ∧ letter.toNat ≤ 0x5A)
    (hc : c ∈ [letter, letter + 0x20]) : fold c = letter := by
  rcases List.mem_pair.mp hc with rfl | rfl
  · exact fold_of_not_lower (by omega)
  · have hn : (letter + 0x20).toNat = letter.toNat + 0x20 := by
      have h20 : (0x20 : Char21).toNat = 0x20 := rfl
      rw [BitVec.toNat_add, h20]
      omega
    rw [fold_of_lower (by omega)]
    exact BitVec.add_sub_cancel letter 0x20

theorem isScalar_of_lt {c : Char21} (h : c.toNat < 0xD800) : isScalar c = true := (isScalar_iff c).mpr (.inl h)

/-- A row for a letter and a figure follows from what the table lists, the entries and the bits of its code: the lookups are
read from the entries, and each PUSH from its lookup. -/
theorem letterRow_of_entries {code : Sym} {bits : List Bool} {letter figure : Char21}
    (h : CodeTable.memRead usTty (BitVec.ofNat 6 code.toNat) = ⟨true, letter⟩ ∧
      CodeTable.memRead usTty (BitVec.ofNat 6 (32 + code.toNat)) = ⟨true, figure⟩ ∧
      (List.range 5).map code.getLsbD = bits ∧
      (0x41 ≤ letter.toNat ∧ letter.toNat ≤ 0x5A) ∧ figure.toNat < 0x41) : LetterRow code bits letter figure := by
  obtain ⟨hl, hf, hbits, hletter, hfigure⟩ := h
  have hne : figure ≠ letter := by
    rintro rfl
    omega
  have hlookupL : ∀ c ∈ [letter, letter + 0x20], symbolFor usTty c = some (code, .letters) := by
    intro c hc
    have hfold := fold_of_mem_cases hletter hc
    refine symbolFor_of_entries usTty_wf hl hf ?_ (by
      rw [hfold, beq_self_eq_true, beq_eq_false_iff_ne.mpr hne, requiredShift])
    rw [← isScalar_fold, hfold]
    exact isScalar_of_lt (by omega)
  have hlookupF : symbolFor usTty figure = some (code, .figures) := by
    have hfold : fold figure = figure := fold_of_not_lower (by omega)
    exact symbolFor_of_entries usTty_wf hl hf (isScalar_of_lt (by omega)) (by
      rw [hfold, beq_self_eq_true, beq_eq_false_iff_ne.mpr hne.symm, requiredShift])
  refine ⟨hl, hf, hbits, hlookupL, hlookupF, fun s hr hp he hroom => ?_⟩
  have hroom' (req : ReqShift) : s.roomFor ((shiftFor req s.ss).1.length + 1) :=
    hroom.mono (Nat.succ_le_succ (shiftFor_length_le req s.ss))
  constructor
  · intro c hc
    rw [exec_push_of_symbolFor hp he (hr ▸ hlookupL c hc) (hroom' _)]
    cases hss : s.ss <;> rfl
  · rw [exec_push_of_symbolFor hp he (hr ▸ hlookupF) (hroom' _)]
    cases hss : s.ss <;> rfl

/-- Settles O8: each row from its entries. -/
theorem codeTableRowsFromE : Obligations.CodeTableRowsFromE :=
  ⟨letterRow_of_entries (by decide), letterRow_of_entries (by decide), letterRow_of_entries (by decide),
    letterRow_of_entries (by decide), letterRow_of_entries (by decide), letterRow_of_entries (by decide),
    letterRow_of_entries (by decide), letterRow_of_entries (by decide), letterRow_of_entries (by decide)⟩

/-- Settles O9: each row from its entries. -/
theorem codeTableRowsFromF : Obligations.CodeTableRowsFromF :=
  ⟨letterRow_of_entries (by decide), letterRow_of_entries (by decide), letterRow_of_entries (by decide),
    letterRow_of_entries (by decide), letterRow_of_entries (by decide), letterRow_of_entries (by decide),
    letterRow_of_entries (by decide), letterRow_of_entries (by decide), letterRow_of_entries (by decide)⟩

/-- Settles O10: each row from its entries. -/
theorem codeTableRowsFromP : Obligations.CodeTableRowsFromP :=
  ⟨letterRow_of_entries (by decide), letterRow_of_entries (by decide), letterRow_of_entries (by decide),
    letterRow_of_entries (by decide), letterRow_of_entries (by decide), letterRow_of_entries (by decide),
    letterRow_of_entries (by decide), letterRow_of_entries (by decide)⟩

/-- A row for a control character follows from its two entries, which are the same, and the tag of its code. -/
theorem controlRow_of_entries {code : Sym} {bits : List Bool} {char : Char21}
    (h : CodeTable.memRead usTty (BitVec.ofNat 6 code.toNat) = ⟨true, char⟩ ∧
      CodeTable.memRead usTty (BitVec.ofNat 6 (32 + code.toNat)) = ⟨true, char⟩ ∧
      (List.range 5).map code.getLsbD = bits ∧ isNeutralCode code = true ∧ char.toNat < 0x41) :
    ControlRow code bits char := by
  obtain ⟨hl, hf, hbits, hneutral, hchar⟩ := h
  have hfold : fold char = char := fold_of_not_lower (by omega)
  have hlookup : symbolFor usTty char = some (code, .neutral) :=
    symbolFor_of_entries usTty_wf hl hf (isScalar_of_lt (by omega)) (by rw [hfold, beq_self_eq_true, requiredShift])
  refine ⟨hl, hf, hbits, symbolTag_of_neutral hneutral, hlookup, fun s hr hp he hroom => ?_⟩
  have hshift : shiftFor .neutral s.ss = ([], s.ss) := by cases s.ss <;> rfl
  rw [exec_push_of_symbolFor hp he (hr ▸ hlookup) (by simpa [hshift] using hroom), hshift]
  rfl

/-- Settles O11: each row from its entries. -/
theorem controlCharacterRows : Obligations.ControlCharacterRows :=
  ⟨controlRow_of_entries (by decide), controlRow_of_entries (by decide), controlRow_of_entries (by decide),
    controlRow_of_entries (by decide)⟩

/-! ### The shift-control symbols -/

/-- Only a PUSH appends to SYMQ (41_framer.md R95; 43_encoder.md R115). -/
theorem MessageMove.push_of_mem_drop {s t : State} (h : MessageMove s t) {v : Sym}
    (hv : v ∈ t.symq.drop s.symq.length) :
    ∃ d rest c, s.nextCommand = some (.push c) ∧ t = frameChar c (takeCommand d rest s) := by
  have hsame : t.symq ≠ s.symq := by
    intro e
    simp [e] at hv
  have hnil : t.symq ≠ [] := by
    intro e
    simp [e] at hv
  cases h with
  | keep hk => exact absurd hk.symq hsame
  | reset d rest hr ht => exact absurd (ht ▸ rfl) hnil
  | beginMsg d rest hc hp ht => exact absurd (ht ▸ rfl) hnil
  | push d rest c hc hp ht => exact ⟨d, rest, c, hc, ht⟩
  | endMsg d rest hc hp ht =>
    obtain ⟨-, -, hq⟩ := closeMessage_queues (takeCommand d rest s)
    rcases hq with hq | ⟨-, hq⟩
    · exact absurd (ht ▸ hq) hsame
    · exact absurd (ht ▸ hq) hnil
  | sample s' rest tone hb hp ht => exact absurd (ht ▸ rfl) hsame
  | finish s' rest hb hp ht => exact absurd (ht ▸ rfl) hsame

/-- What FRAME_CHAR appends is a shift symbol, SS then at its half, or the symbol of the character (41_framer.md R96). -/
theorem frameChar_appended {c : Char21} {s : State} {v : Sym} (hv : v ∈ (frameChar c s).symq.drop s.symq.length) :
    (v = ltrs ∧ (frameChar c s).ss = .letters) ∨ (v = figs ∧ (frameChar c s).ss = .figures) ∨
    ∃ req, symbolFor s.rom c = some (v, req) := by
  rcases frameChar_cases c s with ⟨-, e⟩ | ⟨-, -, -, e⟩ | ⟨-, -, -, e⟩ |
    ⟨v', req, -, -, -, e⟩ | ⟨v', req, -, hf, -, e⟩ <;> rw [e] at hv ⊢
  case inr.inr.inr.inr =>
    simp only [appendSymbols_symq, countChar_symq, List.drop_left, List.mem_append, List.mem_singleton] at hv
    rcases hv with hv | rfl
    · rcases shiftFor_cases req s.ss with ⟨h1, -⟩ | ⟨h1, h2, -⟩ | ⟨h1, h2, -⟩
      · simp [h1] at hv
      · exact .inl ⟨by simpa [h1] using hv, h2⟩
      · exact .inr (.inl ⟨by simpa [h1] using hv, h2⟩)
    · exact .inr (.inr ⟨req, hf⟩)
  all_goals simp at hv

/-- No character gives a shift symbol in US-TTY. -/
theorem symbolFor_usTty_ne_shift {v : Sym} (hv : v = figs ∨ v = ltrs) (c : Char21) (req : ReqShift) :
    symbolFor usTty c ≠ some (v, req) := by
  intro h
  have hno := symbolFor_not_shift usTty_wf h
  simp [hno] at hv

/-- With the US-TTY table a shift symbol that a step appends comes from a PUSH, and SS is then at its half
(40_codetable.md R85, R89). -/
theorem step_appends_shift {s t : State} {v : Sym} (hr : s.rom = usTty) (h : step s = .next t)
    (hv : v ∈ t.symq.drop s.symq.length) (hshift : v = figs ∨ v = ltrs) :
    (∃ c, s.nextCommand = some (.push c)) ∧ t.ss = if v = figs then .figures else .letters := by
  obtain ⟨d, rest, c, hc, rfl⟩ := (step_message h).push_of_mem_drop hv
  refine ⟨⟨c, hc⟩, ?_⟩
  rcases frameChar_appended (s := takeCommand d rest s) hv with ⟨rfl, hss⟩ | ⟨rfl, hss⟩ | ⟨req, hf⟩
  · exact hss
  · exact hss
  · exact absurd (hr ▸ hf) (symbolFor_usTty_ne_shift hshift c req)

/-- Settles O12: the entries and the tag are read from the table; W3 keeps the code from every character, and only a PUSH
appends it. -/
theorem shiftSymbolRows : Obligations.ShiftSymbolRows :=
  ⟨⟨by decide, by decide, by decide, symbolTag_of_shift rfl, symbolFor_usTty_ne_shift (.inl rfl),
      fun _ _ hr h hv => step_appends_shift hr h hv (.inl rfl)⟩,
    ⟨by decide, by decide, by decide, symbolTag_of_shift rfl, symbolFor_usTty_ne_shift (.inr rfl),
      fun _ _ hr h hv => step_appends_shift hr h hv (.inr rfl)⟩⟩

end Sys2Proof.Machine
end

section
/-! Proofs for the family 41_framer.md: what a PUSH does in each case, where the elements of a message lie, and how many
symbols a text is framed in. -/

namespace Sys2Proof.Machine

/-! ### PUSH, case by case -/

/-- PUSH where it is illegal (43_encoder.md R120). -/
theorem exec_push_illegal {s : State} (hp : s.phase ≠ .accept) (c : Char21) :
    exec (.push c) s = .next (raiseFault .illegalCommand s) := by
  rw [exec, execPush, inPhases, if_neg (by simpa using hp)]

/-- An unmapped character of a good message is warned of or latched (41_framer.md R98, R99). -/
theorem frameChar_of_unmapped {s : State} {c : Char21} (he : s.err = .none) (hf : symbolFor s.rom c = none) :
    frameChar c s = if s.cfg.data.skipUnknownChars then appendWarning s.charIdx c (countChar s)
      else latchUnsupported s.charIdx c (countChar s) := by
  simp only [frameChar, if_neg (not_not_intro he), hf]

/-- A supported character without room for its symbols is counted and raises the fault (41_framer.md R95;
60_exceptions.md R131). -/
theorem frameChar_of_no_room {s : State} {c : Char21} {v : Sym} {req : ReqShift} (he : s.err = .none)
    (hf : symbolFor s.rom c = some (v, req)) (hroom : ¬s.roomFor ((shiftFor req s.ss).1.length + 1)) :
    frameChar c s = raiseFault .capacity (countChar s) := by
  rw [← exceeds_eq_false_iff_roomFor, Bool.not_eq_false] at hroom
  simp only [frameChar, if_neg (not_not_intro he), hf, List.length_append, List.length_singleton, if_pos hroom]

/-- Settles O24: the word is `encode_push`, and each case is the lemma for a PUSH under its condition. -/
theorem pushFramesOneCharacter : Obligations.PushFramesOneCharacter := by
  refine ⟨encode_push, fun s c hp => exec_push_illegal hp c, fun s c hp =>
    ⟨fun he => ?ignored, fun he hf hk => ?warned, fun he hf hk => ?latched, fun v req he hf =>
      ⟨fun hroom => ?framed, fun hroom => ?capacity⟩⟩⟩
  case ignored => rw [exec_push hp, frameChar_of_err he, countChar]
  case warned =>
    rw [exec_push hp, frameChar_of_unmapped he hf, if_pos hk]
    rfl
  case latched =>
    rw [exec_push hp, frameChar_of_unmapped he hf, if_neg (by simp [hk])]
    rfl
  case framed =>
    rw [exec_push_of_symbolFor hp he hf hroom, List.append_assoc]
    rfl
  case capacity =>
    rw [exec_push hp, frameChar_of_no_room he hf hroom]
    rfl

/-- Settles O25: with room for two symbols the character is framed whatever its shift, and each row is one value of
`shiftFor`. -/
theorem shiftInsertion : Obligations.ShiftInsertion := by
  intro s c v hp he hroom
  have hframed {req : ReqShift} (hf : symbolFor s.rom c = some (v, req)) :
      frameChar c s = appendSymbols ((shiftFor req s.ss).1 ++ [v]) (shiftFor req s.ss).2 (countChar s) := by
    have hpush := exec_push_of_symbolFor hp he hf (hroom.mono (Nat.succ_le_succ (shiftFor_length_le req s.ss)))
    rwa [exec_push hp, Host.Outcome.next.injEq] at hpush
  refine ⟨frameChar c s, exec_push hp c, fun hf => ?letters, fun hf => ?figures, fun hf => ?neutral⟩ <;>
    rw [hframed hf]
  case letters => constructor <;> intro hss <;> rw [hss] <;> exact ⟨rfl, rfl⟩
  case figures => constructor <;> intro hss <;> rw [hss] <;> exact ⟨rfl, rfl⟩
  case neutral => cases s.ss <;> exact ⟨rfl, rfl⟩

/-! ### The elements of a message -/

/-- Element 7j + i is position i of frame j (41_framer.md R97). -/
theorem elements_get?_frame {q : List Sym} {j i : Nat} {v : Sym} (hv : q[j]? = some v) (hi : i < 7) (M : Rat) :
    (elements q M)[7 * j + i]? = some ⟨frameTone v i, if i = 6 then M else 1⟩ := by
  have hdiv : (7 * j + i) / 7 = j := by omega
  have hmod : (7 * j + i) % 7 = i := by omega
  rw [elements_get?, hdiv, hmod, hv, Option.bind_some, frame_get? v M hi]

/-- Position b + 1 of a frame sends data bit b (41_framer.md R97). -/
theorem frameTone_succ (v : Sym) {b : Nat} (hb : b < 5) : frameTone v (b + 1) = bitTone (v.getLsbD b) := by
  interval_cases b <;> rfl

/-- Settles O30: the count is `elements_length`, and each position is read by `elements_get?_frame`. -/
theorem frameLayout : Obligations.FrameLayout := by
  intro q M
  refine ⟨elements_length q M, fun j v hv => ⟨elements_get?_frame hv (i := 0) (by omega) M, fun b hb => ?_,
    elements_get?_frame hv (i := 6) (by omega) M⟩⟩
  have hstop : b + 1 ≠ 6 := by omega
  rw [elements_get?_frame hv (by omega), frameTone_succ v hb, bitTone, if_neg hstop]

/-- A frame lasts 6 + M bit times (41_framer.md R97). -/
theorem frame_width_sum (v : Sym) (M : Rat) : ((frame v M).map Element.width).sum = 6 + M := by
  simp only [frame, List.map_cons, List.map_nil, List.sum_cons, List.sum_nil]
  ring

/-- F symbols last F(6 + M) bit times (41_framer.md R100). -/
theorem elements_width_sum (q : List Sym) (M : Rat) :
    ((elements q M).map Element.width).sum = (q.length : Rat) * (6 + M) := by
  induction q with
  | nil => simp
  | cons v q ih =>
    rw [elements_cons, List.map_append, List.sum_append, frame_width_sum, ih, List.length_cons]
    push_cast
    ring

/-! ### The symbols of a text -/

/-- The shift that FRAME_CHAR inserts is made of shift symbols only (41_framer.md R96). -/
theorem isShiftCode_of_mem_shiftFor {req : ReqShift} {ss : ShiftState} {v : Sym} (hv : v ∈ (shiftFor req ss).1) :
    isShiftCode v = true := by
  rcases shiftFor_cases req ss with ⟨h, -⟩ | ⟨h, -⟩ | ⟨h, -⟩ <;> rw [h] at hv
  · cases hv
  · obtain rfl := List.mem_singleton.mp hv
    rfl
  · obtain rfl := List.mem_singleton.mp hv
    rfl

/-- The number of symbols in a queue that are no shift symbols. -/
def dataCount (q : List Sym) : Nat := q.countP fun v => !isShiftCode v

/-- Every symbol of a queue is a shift symbol or is counted by `dataCount`. -/
theorem length_eq_dataCount_add (q : List Sym) : q.length = dataCount q + q.countP isShiftCode := by
  rw [dataCount, Nat.add_comm, List.length_eq_countP_add_countP isShiftCode]
  simp only [Bool.not_eq_true, Bool.decide_eq_false]

/-- A character's symbols count as one beside the shift before it. -/
theorem dataCount_append_char {v : Sym} (hv : v ≠ figs ∧ v ≠ ltrs) (q : List Sym) (req : ReqShift) (ss : ShiftState) :
    dataCount (q ++ ((shiftFor req ss).1 ++ [v])) = dataCount q + 1 := by
  have hshift : (shiftFor req ss).1.countP (fun u => !isShiftCode u) = 0 :=
    List.countP_eq_zero.mpr fun u hu => by simp [isShiftCode_of_mem_shiftFor hu]
  have hdata : (!isShiftCode v) = true := by simpa [isShiftCode, figs, ltrs] using hv
  rw [dataCount, List.countP_append, List.countP_append, hshift, List.countP_singleton, if_pos hdata, Nat.zero_add,
    dataCount]

/-- On a legal table a text framed to its end adds to the queue one symbol for each supported character, beside the shift
symbols (41_framer.md R100). -/
theorem dataCount_frameFrom {rom : CodeTable} (hw : CodeTable.wf rom = true) {skip : Bool} {text : List Char21} {i : Nat}
    {ss : ShiftState} {Q : List Sym} {W : List WarnRecord} (h : (frameFrom rom skip i ss Q W text).stopped = none) :
    dataCount (frameFrom rom skip i ss Q W text).symbols =
      dataCount Q + text.countP fun c => (symbolFor rom c).isSome := by
  induction text generalizing i ss Q W with
  | nil => rfl
  | cons c text ih =>
    cases hf : symbolFor rom c with
    | none =>
      cases skip with
      | true =>
        simp only [frameFrom, hf, if_true] at h ⊢
        rw [ih h, List.countP_cons_of_neg (by simp [hf])]
      | false => simp [frameFrom, hf] at h
    | some r =>
      obtain ⟨v, req⟩ := r
      simp only [frameFrom, hf] at h ⊢
      rw [ih h, dataCount_append_char (symbolFor_not_shift hw hf), List.countP_cons_of_pos (by simp [hf])]
      omega

/-- Settles O34: the symbols that are no shifts are one for each supported character, and every symbol lasts 6 + M. -/
theorem frameCount : Obligations.FrameCount := by
  intro rom d text hw hstop Q L S
  have hdata : dataCount Q = L := (dataCount_frameFrom hw hstop).trans (Nat.zero_add L)
  have hlen : Q.length = L + S := hdata ▸ length_eq_dataCount_add Q
  exact ⟨hlen, by rw [elements_width_sum, hlen]⟩

end Sys2Proof.Machine
end

section
/-! Proofs for the family 42_synthesizer.md: element boundaries, the sample a symbol sends, the phase in closed form, the
value of a sample, and that every step completes. -/

namespace Sys2Proof.Machine

/-! ### Element boundaries -/

/-- An element of a message is a position of the frame of its symbol, with that position's tone and width
(41_framer.md R97). -/
theorem exists_symbol_of_element {q : List Sym} {M : Rat} {k : Nat} {e : Element} (he : (elements q M)[k]? = some e) :
    ∃ v, q[k / 7]? = some v ∧ e = ⟨frameTone v (k % 7), if k % 7 = 6 then M else 1⟩ := by
  rw [elements_get?, Option.bind_eq_some_iff] at he
  obtain ⟨v, hv, hpos⟩ := he
  rw [frame_get? v M (Nat.mod_lt k (by norm_num)), Option.some.injEq] at hpos
  exact ⟨v, hv, hpos.symm⟩

/-- D_{7j+i} in closed form (42_synthesizer.md R104). -/
theorem startTime_frame (M : Rat) (j : Nat) {i : Nat} (hi : i ≤ 6) :
    startTime M (7 * j + i) = (j : Rat) * (6 + M) + (i : Rat) := by
  have hdiv : (7 * j + i) / 7 = j := by omega
  have hmod : (7 * j + i) % 7 = i := by omega
  rw [startTime, hdiv, hmod]

/-- Settles O31: the recurrence is `startTime_succ` at the width of the element, and B_k is not cut off. -/
theorem elementBoundaries : Obligations.ElementBoundaries := by
  refine ⟨startTime_zero, fun q M k e he => ?_, fun M j i => startTime_frame M j, fun d k hc => ?_,
    fun d E n k => elemOf_some⟩
  · obtain ⟨v, -, rfl⟩ := exists_symbol_of_element he
    exact startTime_succ M k
  · rw [boundary_cast hc, roundHalfUp_eq]

/-- Settles O32: a boundary is the exact time rounded half up. -/
theorem noDrift : Obligations.NoDrift := by
  intro d k hc
  have hcast : (boundary d k : Rat) = roundHalfUp (startTime d.stopBitMultiplier k * d.sampleRate / d.baudRate) :=
    mod_cast congrArg (Int.cast : Int → Rat) (boundary_cast hc k)
  rw [hcast]
  exact abs_roundHalfUp_sub_le _

/-- Settles O33: `elemOf` finds an element of the sample, and elements share no sample. -/
theorem elementOfSample : Obligations.ElementOfSample := by
  intro d F n hc hn
  obtain ⟨k, he, hk⟩ := elemOf_isSome hc hn
  obtain ⟨-, hle, hlt⟩ := elemOf_some he
  exact ⟨k, hk, hle, hlt, he, fun k' hle' hlt' => element_unique hc hle' hlt' hle hlt⟩

/-! ### The sample a code symbol sends -/

/-- A legal CFG register is its data with the valid bit set (43_encoder.md R118). -/
theorem cfgValid_data_of_cfgValid {c : CfgReg} (h : cfgValid c = true) : cfgValid ⟨true, c.data⟩ = true := by
  obtain ⟨valid, data⟩ := c
  cases valid with
  | false => simp [cfgValid] at h
  | true => exact h

/-- In SYNTH the current element is the one whose samples NSAMP is among (10_state.md R31). -/
theorem currentElement_of_boundary {s : State} {k : Nat} (hp : s.phase = .synth) (hn : s.nSamp < s.nTotal)
    (hc : cfgValid s.cfg = true) (hk : k < 7 * s.symq.length) (hle : boundary s.cfg.data k ≤ s.nSamp)
    (hlt : s.nSamp < boundary s.cfg.data (k + 1)) : s.currentElement = some k := by
  rw [State.currentElement, if_pos ⟨hp, hn⟩]
  exact elemOf_eq (cfgValid_data_of_cfgValid hc) hk hle hlt

/-- Settles O35: the symbol's element is the current one, and its tone is the position's of the frame. -/
theorem symbolSendsOneSample : Obligations.SymbolSendsOneSample := by
  constructor
  · intro i v k e s hi hp hn hc hk hle hlt hv he
    obtain ⟨v', hv', rfl⟩ := exists_symbol_of_element he
    obtain rfl : v' = v := Option.some.inj (hv'.symm.trans hv)
    rw [eq_decodeSymbol hi, exec_decodeSymbol, sendSymbol_onLine (currentElement_of_boundary hp hn hc hk hle hlt) hv,
      emitSample, advancePhase]
    cases frameTone v' (k % 7) <;> rfl
  · intro s hi hp hn
    obtain ⟨hθ, -⟩ := hi.synth_samples hp
    rw [hθ, hn, phaseAt]

/-! ### The phase in closed form -/

/-- A sample adds one to the count of its own tone and to no other (42_synthesizer.md R113). -/
theorem toneCount_succ (d : CfgData) (Q : List Sym) (t : Tone) (n : Nat) :
    toneCount d Q t (n + 1) = toneCount d Q t n + if toneAt d Q n = some t then 1 else 0 := by
  simp [toneCount, List.range_succ, List.countP_append, List.countP_singleton]

/-- A sample of a tone advances the closed form as it advances THETA (42_synthesizer.md R107). -/
theorem closedPhase_succ_of_tone {d : CfgData} {Q : List Sym} {n : Nat} {t : Tone} (h : toneAt d Q n = some t) :
    closedPhase d Q (n + 1) = advancePhase d t (closedPhase d Q n) := by
  rw [advancePhase, closedPhase, closedPhase, frac_frac_add, toneCount_succ, toneCount_succ, h]
  congr 1
  cases t <;> simp only [freq, Option.some.injEq, reduceCtorEq, if_true, if_false] <;> push_cast <;> ring

/-- A sample of no element leaves the closed form as it was. -/
theorem closedPhase_succ_of_none {d : CfgData} {Q : List Sym} {n : Nat} (h : toneAt d Q n = none) :
    closedPhase d Q (n + 1) = closedPhase d Q n := by
  simp [closedPhase, toneCount_succ, h]

/-- The running update from 0 comes to the closed form after any number of samples (42_synthesizer.md R113). -/
theorem phaseAt_eq_closedPhase (d : CfgData) (Q : List Sym) (n : Nat) : phaseAt d Q n = closedPhase d Q n := by
  induction n with
  | zero => simp [phaseAt, closedPhase, toneCount]
  | succ n ih =>
    cases h : toneAt d Q n with
    | some t => rw [closedPhase_succ_of_tone h, ← ih, phaseAt, h]
    | none => rw [closedPhase_succ_of_none h, ← ih, phaseAt, h]

/-- Settles O38: by the invariant THETA is the running update's phase. -/
theorem phaseContinuity : Obligations.PhaseContinuity :=
  fun _ hi hp => (hi.synth_samples hp).1.trans (phaseAt_eq_closedPhase _ _ _)

/-! ### The block's turn completes -/

/-- In SYNTH with samples left there is a current element, and SYMQ has its symbol (42_synthesizer.md R106). -/
theorem State.Inv.exists_currentElement {s : State} (hi : s.Inv) (hp : s.phase = .synth) (hn : s.nSamp ≠ s.nTotal) :
    ∃ k v, s.currentElement = some k ∧ s.symq[k / 7]? = some v := by
  have hlt : s.nSamp < s.nTotal := lt_of_le_of_ne hi.nSamp_le hn
  obtain ⟨k, he, hk⟩ := elemOf_isSome (hi.cfgValid_of_synth hp).2 ((hi.synth_ok hp).2 ▸ hlt)
  have hj : k / 7 < s.symq.length := by omega
  exact ⟨k, s.symq[k / 7], by rw [State.currentElement, if_pos ⟨hp, hlt⟩, he], List.getElem?_eq_getElem hj⟩

/-- The symbol on the line is that of the current element (10_state.md R31). -/
theorem onLine_of_currentElement {s : State} {k : Nat} {v : Sym} (hk : s.currentElement = some k)
    (hv : s.symq[k / 7]? = some v) : s.onLine = some v := by
  simpa [State.onLine, State.currentFrame, hk] using hv

/-- The block's turn with samples left makes one sample of the current element (43_encoder.md R122). -/
theorem blockTurn_of_currentElement {s : State} {k : Nat} {v : Sym} (hn : s.nSamp ≠ s.nTotal)
    (hk : s.currentElement = some k) (hv : s.symq[k / 7]? = some v) :
    blockTurn s = .next (emitSample (frameTone v (k % 7)) s) := by
  rw [blockTurn_of_onLine (currentElement_some hk).1 hn (onLine_of_currentElement hk hv), exec_decodeSymbol,
    sendSymbol_onLine hk hv]

/-- The block's turn completes: no sample of a message is without an element (42_synthesizer.md R106). -/
theorem blockTurn_completes {s : State} (hi : s.Inv) : ∃ t, blockTurn s = .next t := by
  by_cases hp : s.phase = .synth
  · by_cases hn : s.nSamp = s.nTotal
    · exact ⟨finishMessage s, by rw [blockTurn, if_pos hp, if_pos hn]⟩
    · obtain ⟨k, v, hk, hv⟩ := hi.exists_currentElement hp hn
      exact ⟨_, blockTurn_of_currentElement hn hk hv⟩
  · exact ⟨s, blockTurn_of_not_synth hp⟩

/-- A command has its effect or raises the fault, and answers a next state in both cases (43_encoder.md R115). -/
theorem inPhases_completes (legal : List Phase) (s : State) (effect : State → State) :
    ∃ t, inPhases legal s effect = .next t := by
  unfold inPhases
  split_ifs
  · exact ⟨_, rfl⟩
  · exact ⟨_, rfl⟩

/-- Every command word completes in every state, the illegal ones by their fault (60_exceptions.md R130). -/
theorem runCommand_completes (w : Word) (s : State) : ∃ t, runCommand w s = .next t := by
  cases hd : decode (.word w) with
  | error e => exact ⟨raiseFault .illegalCommand s, by rw [runCommand, hd]⟩
  | ok i =>
    rw [runCommand_of_decode hd]
    have hw := (decode_word_iff w i).mp hd
    cases i <;> simp only [encode, reduceCtorEq] at hw
    case nop => exact ⟨s, rfl⟩
    all_goals exact inPhases_completes _ _ _

/-- Settles O45: by the next move of the schedule; taking it leaves the invariant true where the block's turn needs it. -/
theorem everyStepCompletes : Obligations.EveryStepCompletes := by
  intro s hi
  have block {s' : State} (hb : s.blockNext s') : ∃ t, step s = .next t := by
    rw [step_eq_blockTurn hi.rom_legal hb]
    obtain ⟨rest, rfl⟩ := hb.eq_takeEvent
    exact blockTurn_completes (hi.takeEvent rest)
  rcases hs : s.schedule with _ | ⟨ev, rest⟩
  · exact block (.inl ⟨hs, rfl⟩)
  · cases ev with
    | idle => exact ⟨takeEvent rest s, by rw [step_eq_runSchedule hi.rom_legal, runSchedule, hs]⟩
    | synth => exact block (.inr (.inl ⟨rest, hs, rfl⟩))
    | wait => exact block (.inr (.inr ⟨rest, hs, rfl⟩))
    | command w bus =>
      rw [step_eq_runCommand hi.rom_legal hs]
      exact runCommand_completes w _
    | reset d => exact ⟨applyReset d (takeEvent rest s), by rw [step_eq_runSchedule hi.rom_legal, runSchedule, hs]⟩

/-! ### The value of a sample -/

/-- Settles O39: P3, and P4 where the phase is 0. -/
theorem sampleBounds : Obligations.SampleBounds := by
  intro p A θ hA
  obtain ⟨r, hr, hlo, hhi⟩ := sampleFn_in_range p hA θ
  refine ⟨sampleFn_format p A θ, r, hr, hlo, hhi, ?_⟩
  rintro rfl
  exact Option.some.inj (hr.symm.trans (sampleFn_zero_phase p A))

/-- The amplitude of a legal configuration (43_encoder.md R118). -/
theorem amplitude_of_cfgValid {c : CfgReg} (h : cfgValid c = true) : 0 < c.data.amplitude ∧ c.data.amplitude ≤ 1 := by
  simp only [cfgValid, Bool.and_eq_true, decide_eq_true_eq] at h
  tauto

/-- Settles O40: the block's turn emits SAMPLE_FN at the phase before the update, with an amplitude BEGIN checked. -/
theorem floatSampleAccuracy : Obligations.FloatSampleAccuracy := by
  intro s s' hi hb hp hn hf
  obtain ⟨k, v, hk, hv⟩ := hi.exists_currentElement hp hn
  obtain ⟨hpos, hle⟩ := amplitude_of_cfgValid (hi.cfgValid_of_synth hp).1
  obtain ⟨r, hr, -⟩ := sampleFn_in_range s.sampling hpos.le s.theta
  refine ⟨emitSample (frameTone v (k % 7)) s', sampleFn s.sampling s.cfg.data.amplitude s.theta, r, ?_, ?_,
    sampleFn_format _ _ _, hr, sampleFn_accurate s.sampling hpos.le hle hr⟩
  · rw [step_eq_blockTurn hi.rom_legal hb]
    obtain ⟨rest, rfl⟩ := hb.eq_takeEvent
    exact blockTurn_of_currentElement (by simpa using hn) hk hv
  · obtain ⟨rest, rfl⟩ := hb.eq_takeEvent
    simp [hf, conv]

/-! ### Output conversion -/

/-- q is the integer nearest to x, the one away from zero at a half (42_synthesizer.md R110). -/
def NearestAway (x : Rat) (q : Int) : Prop :=
  |x - (q : Rat)| < 1 / 2 ∨ (|x - (q : Rat)| = 1 / 2 ∧ |x| ≤ |(q : Rat)|)

/-- Rounding away from zero is the same on both sides of zero. -/
theorem NearestAway.neg {x : Rat} {q : Int} (h : NearestAway x q) : NearestAway (-x) (-q) := by
  have habs : |-x - ((-q : Int) : Rat)| = |x - (q : Rat)| := by
    rw [← abs_neg (x - (q : Rat))]
    push_cast
    ring_nf
  rwa [NearestAway, habs, Int.cast_neg, abs_neg, abs_neg]

/-- From zero up, the nearest integer with halves away from zero lies within [x - 1/2, x + 1/2). -/
theorem roundHalfUp_of_nearestAway {x : Rat} {q : Int} (h : NearestAway x q) (hx : 0 ≤ x) : roundHalfUp x = q := by
  rw [roundHalfUp_eq, Int.floor_eq_iff]
  rcases h with h | ⟨h, haway⟩
  · obtain ⟨h1, h2⟩ := abs_lt.mp h
    constructor <;> linarith
  · rcases eq_or_eq_neg_of_abs_eq h with htie | htie
    · have hgt : ((-1 : Int) : Rat) < q := by
        push_cast
        linarith
      have hq : (0 : Rat) ≤ q := Int.cast_nonneg (Int.add_one_le_of_lt (Int.cast_lt.mp hgt))
      rw [abs_of_nonneg hx, abs_of_nonneg hq] at haway
      linarith
    · constructor <;> linarith

/-- `roundHalfAway` gives the nearest integer, halves away from zero (42_synthesizer.md R110). -/
theorem roundHalfAway_of_nearestAway {x : Rat} {q : Int} (h : NearestAway x q) : roundHalfAway x = q := by
  unfold roundHalfAway
  split_ifs with hx
  · exact roundHalfUp_of_nearestAway h hx
  · have hneg : roundHalfUp (-x) = -q := roundHalfUp_of_nearestAway h.neg (by linarith)
    rw [roundHalfUp] at hneg
    rw [hneg, neg_neg]

/-- An INT16 value holds its integer: `sat16` has left it within 16 bits (42_synthesizer.md R110). -/
theorem toInt_ofInt_pcmOf (v : FloatVal) : (BitVec.ofInt 16 (pcmOf v)).toInt = pcmOf v := by
  have hlo : -32767 ≤ pcmOf v := le_sat16 _
  have hhi : pcmOf v ≤ 32767 := sat16_le _
  exact BitVec.toInt_ofInt_eq_self (by norm_num) (by omega) (by omega)

/-- Widening an INT16 sample keeps its value (42_synthesizer.md R110). -/
theorem widenSample_toInt (q : Pcm16) : (widenSample q).toInt = q.toInt :=
  BitVec.toInt_signExtend_of_le (by norm_num)

/-- Settles O41: the range is `sat16`'s, and the rounding is that of the nearest integer. -/
theorem outputConversion : Obligations.OutputConversion := by
  refine ⟨fun v => rfl, fun v => ⟨BitVec.ofInt 16 (pcmOf v), rfl, ?_, ?_, widenSample_toInt _⟩,
    fun v r q hr hq => ?_⟩
  · rw [toInt_ofInt_pcmOf]
    exact le_sat16 _
  · rw [toInt_ofInt_pcmOf]
    exact sat16_le _
  · have hround : roundHalfAway (r * 32767) = q := roundHalfAway_of_nearestAway hq
    rw [conv, pcmOf, hr, Option.getD_some, hround, sat16]

end Sys2Proof.Machine
end

section
/-! Proofs for the family 43_encoder.md: the commands outside PUSH in every phase, the block's turn, and the law of
ENCODE. -/

namespace Sys2Proof.Machine

/-! ### The commands, by phase -/

/-- A command where it is legal has its effect (43_encoder.md R115). -/
theorem inPhases_of_mem {legal : List Phase} {s : State} (hp : s.phase ∈ legal) (effect : State → State) :
    inPhases legal s effect = .next (effect s) := by
  rw [inPhases, if_pos (by simpa using hp)]

/-- A command where it is illegal sets CMDERR and has no effect (43_encoder.md R115; 60_exceptions.md R130). -/
theorem inPhases_of_not_mem {legal : List Phase} {s : State} (hp : s.phase ∉ legal) (effect : State → State) :
    inPhases legal s effect = .next (raiseFault .illegalCommand s) := by
  rw [inPhases, if_neg (by simpa using hp)]

/-- While a message is open or being made the phase is none of those of CFG and BEGIN (43_encoder.md R115). -/
theorem phase_not_mem_idle_done {s : State} (hp : s.phase = .accept ∨ s.phase = .synth) :
    s.phase ∉ [Phase.idle, Phase.done] := by
  rcases hp with hp | hp <;> simp [hp]

/-- CFG while a message is open or being made (43_encoder.md R117). -/
theorem exec_cfg_illegal {s : State} (hp : s.phase = .accept ∨ s.phase = .synth) :
    exec .cfg s = .next (raiseFault .illegalCommand s) :=
  inPhases_of_not_mem (phase_not_mem_idle_done hp) _

/-- BEGIN opens a message in IDLE and DONE (43_encoder.md R119). -/
theorem exec_begin {s : State} (hp : s.phase = .idle ∨ s.phase = .done) :
    exec .beginMsg s = .next (openMessage s) :=
  inPhases_of_mem (by simpa using hp) _

/-- BEGIN while a message is open or being made (43_encoder.md R119). -/
theorem exec_begin_illegal {s : State} (hp : s.phase = .accept ∨ s.phase = .synth) :
    exec .beginMsg s = .next (raiseFault .illegalCommand s) :=
  inPhases_of_not_mem (phase_not_mem_idle_done hp) _

/-- END closes the open message (43_encoder.md R121). -/
theorem exec_end {s : State} (hp : s.phase = .accept) : exec .endMsg s = .next (closeMessage s) :=
  inPhases_of_mem (by simpa using hp) _

/-- END with no message open (43_encoder.md R121). -/
theorem exec_end_illegal {s : State} (hp : s.phase ≠ .accept) :
    exec .endMsg s = .next (raiseFault .illegalCommand s) :=
  inPhases_of_not_mem (by simpa using hp) _

/-- Settles O19: the meaning of NOP is the state it is given. -/
theorem nopChangesNothing : Obligations.NopChangesNothing := ⟨rfl, fun _ => rfl⟩

/-- Settles O20: the bus is loaded whole, so field by field, and nothing of it is looked at. -/
theorem cfgLoadsBus : Obligations.CfgLoadsBus :=
  ⟨rfl, fun _ => ⟨exec_cfg, exec_cfg_illegal⟩⟩

/-- Settles O21: the check is the conjunction of the decided comparisons, bracketed from the left. -/
theorem configurationCheck : Obligations.ConfigurationCheck := by
  intro c
  simp only [cfgValid, Bool.and_eq_true, decide_eq_true_eq, and_assoc]

/-- Settles O22: what BEGIN does in the phases where it is legal, and where it is not. -/
theorem beginOpensMessage : Obligations.BeginOpensMessage :=
  ⟨rfl, fun _ => ⟨exec_begin, exec_begin_illegal⟩⟩

/-- Settles O23: a message is opened with no register that the hypotheses leave free. -/
theorem beginForgetsPreviousMessage : Obligations.BeginForgetsPreviousMessage := by
  intro s s' hp hp' hrom hsymbols hsamples hsampling hcfg hcmd hcap hbus hsched
  rw [exec_begin hp, exec_begin hp', openMessage, openMessage, hrom, hsymbols, hsamples, hsampling, hcfg, hcmd, hcap,
    hbus, hsched]

/-! ### END -/

/-- A count within a capacity, if there is one (60_exceptions.md R131). -/
theorem exceeds_eq_false_iff (n : Nat) (cap : Option Nat) : exceeds n cap = false ↔ ∀ m, cap = some m → n ≤ m := by
  cases cap <;> simp [exceeds]

/-- A count over a capacity (60_exceptions.md R131). -/
theorem exceeds_eq_true_iff (n : Nat) (cap : Option Nat) : exceeds n cap = true ↔ ∃ m, cap = some m ∧ m < n := by
  cases cap <;> simp [exceeds]

/-- NTOTAL in closed form (42_synthesizer.md R104, R105). -/
theorem messageSamples_eq (c : CfgData) (F : Nat) : messageSamples c F =
    (((F : Rat) * (6 + c.stopBitMultiplier) * c.sampleRate / c.baudRate) + 1 / 2).floor.toNat := by
  rw [messageSamples, boundary, startTime_mul_seven, roundHalfUp]

/-- END of a failed message (43_encoder.md R121). -/
theorem closeMessage_of_err {s : State} (he : s.err ≠ .none) : closeMessage s = closeFailed s := by
  rw [closeMessage, if_pos he]

/-- END of a good message starts its synthesis or raises the fault (43_encoder.md R121). -/
theorem closeMessage_of_good {s : State} (he : s.err = .none) : closeMessage s =
    if exceeds (messageSamples s.cfg.data s.symq.length) s.maxSamples then raiseFault .capacity s
    else startSynth (messageSamples s.cfg.data s.symq.length) s := by
  rw [closeMessage, if_neg (not_not_intro he)]

/-- Settles O26: N is NTOTAL in closed form, and each case is the lemma for END under its condition. -/
theorem endClosesMessage : Obligations.EndClosesMessage := by
  refine ⟨rfl, fun s => exec_end_illegal, fun s hp => ?_⟩
  rw [exec_end hp, ← messageSamples_eq]
  refine ⟨fun he => ?invalid, fun he => ?unsupported, fun he hfit => ?good, fun he hover => ?capacity⟩
  case invalid => rw [closeMessage_of_err (by simp [he]), closeFailed, he, ErrCode.toResult]
  case unsupported => rw [closeMessage_of_err (by simp [he]), closeFailed, he, ErrCode.toResult]
  case good =>
    rw [closeMessage_of_good he, (exceeds_eq_false_iff _ _).mpr hfit]
    rfl
  case capacity =>
    rw [closeMessage_of_good he, (exceeds_eq_true_iff _ _).mpr hover]
    rfl

/-! ### The block's turn -/

/-- All forms of the block's turn outside SYNTH leave the state at which it is taken (60_exceptions.md R140). -/
theorem step_of_not_synth {s s' : State} (hr : CodeTable.wf s.rom = true) (hb : s.blockNext s')
    (hp : s.phase ≠ .synth) : step s = .next s' := by
  rw [step_eq_blockTurn hr hb]
  obtain ⟨rest, rfl⟩ := hb.eq_takeEvent
  exact blockTurn_of_not_synth hp

/-- The block's turn with all samples made (43_encoder.md R122). -/
theorem blockTurn_of_all_made {s : State} (hp : s.phase = .synth) (hn : s.nSamp = s.nTotal) :
    blockTurn s = .next (finishMessage s) := by
  rw [blockTurn, if_pos hp, if_pos hn]

/-- What END makes of a message, phase by phase (43_encoder.md R115). -/
theorem closeMessage_phase {s : State} (hp : s.phase = .accept) :
    (s.err ≠ .none → (closeMessage s).phase = .done) ∧
    (s.err = .none → (closeMessage s).phase = .synth ∨
      ((closeMessage s).phase = .accept ∧ (closeMessage s).capErr = true ∧
        ∃ m, s.maxSamples = some m ∧ m < messageSamples s.cfg.data s.symq.length)) := by
  rcases closeMessage_cases s with ⟨he, e⟩ | ⟨he, hx, e⟩ | ⟨he, -, e⟩ <;> rw [e]
  · exact ⟨fun _ => rfl, fun h => absurd h he⟩
  · exact ⟨fun h => absurd he h, fun _ => .inr ⟨hp, rfl, (exceeds_eq_true_iff _ _).mp hx⟩⟩
  · exact ⟨fun h => absurd he h, fun _ => .inl rfl⟩

/-- Settles O27: each command by its lemma where it is legal and by the fault where it is not. -/
theorem commandPhaseTable : Obligations.CommandPhaseTable := by
  intro s
  refine ⟨⟨s, rfl, rfl, rfl⟩, exec_cfg_illegal, fun hp => ⟨_, exec_cfg hp, rfl, rfl⟩, exec_begin_illegal,
    fun hp => ⟨_, exec_begin hp, rfl, rfl⟩, fun c hp => exec_push_illegal hp c, fun c hp => ?push, exec_end_illegal,
    fun hp => ?close, fun s' hb hr hp => step_of_not_synth hr hb hp⟩
  case push =>
    obtain ⟨hphase, hcmd, -⟩ := frameChar_frame c s
    exact ⟨_, exec_push hp c, hphase.trans hp, hcmd⟩
  case close =>
    obtain ⟨-, -, -, -, hcmd, -⟩ := closeMessage_frame s
    exact ⟨_, exec_end hp, hcmd, closeMessage_phase hp⟩

/-- A symbol that is not on the line is refused (43_encoder.md R115; assumption log 1). -/
theorem sendSymbol_of_not_onLine {v : Sym} {s : State} (h : s.onLine ≠ some v) :
    sendSymbol v s = .refused .symbolNotOnLine := by
  unfold sendSymbol
  cases hk : s.currentElement with
  | none => rfl
  | some k => exact if_neg fun hv => h (onLine_of_currentElement hk hv)

/-- Settles O36: a symbol is on the line only in SYNTH with samples left. -/
theorem symbolOffLineRefused : Obligations.SymbolOffLineRefused := by
  intro i v s hi hoff
  rw [eq_decodeSymbol hi, exec_decodeSymbol]
  refine sendSymbol_of_not_onLine fun hv => ?_
  obtain ⟨k, hk, -⟩ := onLine_some hv
  obtain ⟨hp, hlt, -⟩ := currentElement_some hk
  rcases hoff with hoff | hoff | hoff
  · exact hoff hp
  · omega
  · exact hoff hv

/-- Settles O37: the sample's tone is that of its element in the frame of the symbol on the line. -/
theorem synthStep : Obligations.SynthStep := by
  intro s s' hi hb
  rw [step_eq_blockTurn hi.rom_legal hb]
  obtain ⟨rest, rfl⟩ := hb.eq_takeEvent
  refine ⟨fun hp => blockTurn_of_not_synth hp, fun hp hn => ?finish, fun hp hn => ?sample⟩
  case finish => exact blockTurn_of_all_made hp hn
  case sample =>
    obtain ⟨k, v, hk, hv⟩ := hi.exists_currentElement hp hn
    refine ⟨frameTone v (k % 7), toneAt_of_currentElement hk hv, ?_⟩
    rw [blockTurn_of_currentElement (s := takeEvent rest s) hn hk hv, emitSample, advancePhase]
    cases frameTone v (k % 7) <;> rfl

/-! ### A message in synthesis -/

/-- The host does nothing but wait, if that (30_encoding.md R53; 70_reset_and_hazards.md R151). -/
def State.quiet (s : State) : Prop := s.schedule = [] ∨ ∃ rest, s.schedule = .wait :: rest

/-- While the host is quiet the step in SYNTH is the block's turn, the schedule as it is. -/
theorem step_of_quiet {s : State} (hr : CodeTable.wf s.rom = true) (hq : s.quiet) (hp : s.phase = .synth) :
    step s = blockTurn s := by
  rcases hq with hs | ⟨rest, hs⟩
  · exact step_eq_blockTurn hr (.inl ⟨hs, rfl⟩)
  · exact step_wait hr hs (by simp [hp])

/-- The message of `s` with its first n samples made, as ENCODE's loop makes them (43_encoder.md R123). -/
def State.atSample (s : State) (n : Nat) : State :=
  { s with
    nSamp := n
    theta := phaseAt s.cfg.data s.symq n
    outbuf := (List.range n).map (sampleAt s.sampling s.cfg.data s.symq) }

/-- The invariant says that the samples made are those of ENCODE's loop. -/
theorem State.Inv.atSample_nSamp {s : State} (hi : s.Inv) (hp : s.phase = .synth) : s.atSample s.nSamp = s := by
  obtain ⟨hθ, hout⟩ := hi.synth_samples hp
  rw [State.atSample, ← hθ, ← hout]

/-- With samples left and the host quiet the step makes one more of the same message (43_encoder.md R122). -/
theorem step_makes_sample {s : State} (hi : s.Inv) (hp : s.phase = .synth) (hq : s.quiet) (hn : s.nSamp ≠ s.nTotal) :
    ∃ tone, step s = .next (emitSample tone s) ∧ (emitSample tone s).Inv := by
  obtain ⟨k, v, hk, hv⟩ := hi.exists_currentElement hp hn
  exact ⟨frameTone v (k % 7), by rw [step_of_quiet hi.rom_legal hq hp, blockTurn_of_currentElement hn hk hv],
    hi.emitSample hk hv⟩

/-- While the host is quiet the block makes one sample a step (43_encoder.md R122). -/
theorem run_makes_samples {s : State} (hi : s.Inv) (hp : s.phase = .synth) (hq : s.quiet) {j : Nat}
    (hj : j ≤ s.nTotal - s.nSamp) : Host.Core.run Sys2Proof.core j s = .next (s.atSample (s.nSamp + j)) := by
  induction j generalizing s with
  | zero => exact congrArg _ (hi.atSample_nSamp hp).symm
  | succ j ih =>
    obtain ⟨tone, hstep, hi'⟩ := step_makes_sample hi hp hq (by omega)
    have hj' : j ≤ s.nTotal - (s.nSamp + 1) := by omega
    rw [run_succ hstep, ih hi' hp hq hj', emitSample_nSamp, Nat.add_right_comm, Nat.add_assoc]
    rfl

/-- One step after the last sample the message is finished (43_encoder.md R122). -/
theorem run_finishes {s : State} (hi : s.Inv) (hp : s.phase = .synth) (hq : s.quiet) :
    Host.Core.run Sys2Proof.core (s.nTotal - s.nSamp + 1) s = .next (finishMessage (s.atSample s.nTotal)) := by
  have hmade := run_makes_samples hi hp hq le_rfl
  rw [Nat.add_sub_cancel' hi.nSamp_le] at hmade
  have hfinish : step (s.atSample s.nTotal) = .next (finishMessage (s.atSample s.nTotal)) := by
    rw [step_of_quiet (s := s.atSample s.nTotal) hi.rom_legal hq hp]
    exact blockTurn_of_all_made hp rfl
  rw [run_add hmade, run_succ hfinish]
  rfl

/-- Settles O57: the run is the message with the samples counted so far, and then finished. -/
theorem synthesisTerminates : Obligations.SynthesisTerminates := by
  intro s hi hp hq
  refine ⟨fun j hj => ⟨_, run_makes_samples hi hp hq hj, hp, rfl⟩, _, run_finishes hi hp hq, rfl, rfl, ?_, rfl, rfl,
    rfl⟩
  simp [State.atSample]

/-! ### CFG and BEGIN of a call of ENCODE -/

/-- A scheduled command word answers what its command does on the state with the event taken (30_encoding.md R46, R47). -/
theorem step_of_exec {s t : State} {i : Instr} {w : Word} {d : CfgData} {rest : List Event}
    (hr : CodeTable.wf s.rom = true) (hw : encode i = .word w) (hs : s.schedule = .command w d :: rest)
    (ht : exec i (takeCommand d rest s) = .next t) : step s = .next t := by
  rw [step_eq_runCommand hr hs, runCommand_of_decode ((decode_word_iff w i).mpr hw), ht]

/-- The host move that pushes a character (30_encoding.md R53). -/
def pushEvent (d : CfgData) (c : Char21) : Event := .command (0x03000000#32 ||| c.zeroExtend 32) d

/-- The host moves after the text: END, and the wait (30_encoding.md R53). -/
def closeEvents (d : CfgData) : List Event := [.command 0x04000000#32 d, .wait]

/-- The moves of a call of ENCODE in order (43_encoder.md R123). -/
theorem callEvents_eq (d : CfgData) (text : List Char21) : callEvents d text =
    .command 0x01000000#32 d :: .command 0x02000000#32 d :: (text.map (pushEvent d) ++ closeEvents d) := by
  have hcfg : issue .cfg d = [.command 0x01000000#32 d] := issue_eq rfl d
  rw [callEvents, sendEvents_eq, hcfg]
  simp [pushEvent, closeEvents]

/-- What CFG with `d` on the bus and then BEGIN make of `s`, `rest` the moves still to come. -/
def State.opened (s : State) (d : CfgData) (rest : List Event) : State := openMessage (loadCfg d (takeCommand d rest s))

/-- A call starts with CFG and BEGIN, both legal in IDLE and DONE (43_encoder.md R117, R119). -/
theorem run_opens {s : State} {d : CfgData} {rest : List Event} (hr : CodeTable.wf s.rom = true)
    (hp : s.phase = .idle ∨ s.phase = .done)
    (hs : s.schedule = .command 0x01000000#32 d :: .command 0x02000000#32 d :: rest) :
    Host.Core.run Sys2Proof.core 2 s = .next (s.opened d rest) := by
  rw [run_succ (step_cfg_word hr hp hs)]
  exact run_succ (step_of_exec (i := .beginMsg) (s := loadCfg d (takeCommand d (.command 0x02000000#32 d :: rest) s))
    hr rfl rfl (exec_begin (s := loadCfg d (takeCommand d rest s)) hp)) 0

/-- After BEGIN the invariant holds whatever the registers were, since every one of the message is at its start value. -/
theorem inv_openMessage {s : State} (hr : CodeTable.wf s.rom = true) : (openMessage s).Inv := by
  cases hc : cfgValid s.cfg <;> constructor <;> simp [hr, hc]

/-! ### The text of a call of ENCODE -/

/-- What framing has left, and will leave once it has taken `text` as well: ENCODE's loop goes on from the registers of an
open message, and the latched error has ended it (43_encoder.md R123). -/
def State.framing (s : State) (text : List Char21) : Framed :=
  if s.err = .none then frameFrom s.rom s.cfg.data.skipUnknownChars s.charIdx s.ss s.symq s.warn text
  else ⟨s.symq, s.warn, some (s.errIndex, s.errChar)⟩

/-- With no error latched ENCODE's loop goes on. -/
theorem framing_of_good {s : State} (he : s.err = .none) (text : List Char21) :
    s.framing text = frameFrom s.rom s.cfg.data.skipUnknownChars s.charIdx s.ss s.symq s.warn text := if_pos he

/-- A latched error has ended ENCODE's loop. -/
theorem framing_of_err {s : State} (he : s.err ≠ .none) (text : List Char21) :
    s.framing text = ⟨s.symq, s.warn, some (s.errIndex, s.errChar)⟩ := if_neg he

/-- ENCODE's loop only appends to Q (43_encoder.md R123). -/
theorem length_le_frameFrom (rom : CodeTable) (skip : Bool) (text : List Char21) (i : Nat) (ss : ShiftState)
    (Q : List Sym) (W : List WarnRecord) : Q.length ≤ (frameFrom rom skip i ss Q W text).symbols.length := by
  induction text generalizing i ss Q W with
  | nil => exact le_rfl
  | cons c text ih =>
    cases hf : symbolFor rom c with
    | none =>
      cases skip with
      | true => simpa [frameFrom, hf] using ih _ _ _ _
      | false => simp [frameFrom, hf]
    | some r =>
      simp only [frameFrom, hf]
      exact le_trans (by simp) (ih _ _ _ _)

/-- A count below one within a capacity is within it. -/
theorem exceeds_eq_false_of_le {m n : Nat} {cap : Option Nat} (hmn : m ≤ n) (h : exceeds n cap = false) :
    exceeds m cap = false := by
  rw [exceeds_eq_false_iff] at h ⊢
  exact fun k hk => hmn.trans (h k hk)

/-- `t` is the block `s` was: built the same, with the same CFG and the same fault bits. -/
structure SameBlock (s t : State) : Prop where
  rom : t.rom = s.rom
  maxSymbols : t.maxSymbols = s.maxSymbols
  maxSamples : t.maxSamples = s.maxSamples
  sampling : t.sampling = s.sampling
  cfg : t.cfg = s.cfg
  cmdErr : t.cmdErr = s.cmdErr
  capErr : t.capErr = s.capErr

theorem SameBlock.trans {s t u : State} (h : SameBlock s t) (h' : SameBlock t u) : SameBlock s u :=
  ⟨h'.rom.trans h.rom, h'.maxSymbols.trans h.maxSymbols, h'.maxSamples.trans h.maxSamples,
    h'.sampling.trans h.sampling, h'.cfg.trans h.cfg, h'.cmdErr.trans h.cmdErr, h'.capErr.trans h.capErr⟩

/-- A PUSH is one turn of ENCODE's loop, when the text fits MAX_SYMBOLS (41_framer.md R95; 43_encoder.md R123). -/
theorem frameChar_is_loop_turn {s : State} {c : Char21} {text : List Char21}
    (hfit : exceeds (s.framing (c :: text)).symbols.length s.maxSymbols = false) :
    (frameChar c s).framing text = s.framing (c :: text) ∧ SameBlock s (frameChar c s) := by
  rcases frameChar_cases c s with ⟨he, e⟩ | ⟨he, hf, hk, e⟩ | ⟨he, hf, hk, e⟩ | ⟨v, req, he, hf, hx, e⟩ |
    ⟨v, req, he, hf, hx, e⟩ <;> rw [e]
  case inl =>
    rw [framing_of_err he, framing_of_err (s := countChar s) he]
    exact ⟨rfl, rfl, rfl, rfl, rfl, rfl, rfl, rfl⟩
  all_goals
    rw [framing_of_good he] at hfit ⊢
    simp only [frameFrom, hf] at hfit ⊢
  case inr.inl =>
    rw [framing_of_good (by simpa using he), hk]
    exact ⟨by simp [hk], rfl, rfl, rfl, rfl, rfl, rfl, rfl⟩
  case inr.inr.inl =>
    rw [framing_of_err (by simp), hk]
    exact ⟨rfl, rfl, rfl, rfl, rfl, rfl, rfl, rfl⟩
  case inr.inr.inr.inl =>
    rw [← List.length_append, exceeds_eq_false_of_le (length_le_frameFrom _ _ _ _ _ _ _) hfit] at hx
    cases hx
  case inr.inr.inr.inr =>
    rw [framing_of_good (by simpa using he)]
    exact ⟨rfl, rfl, rfl, rfl, rfl, rfl, rfl, rfl⟩

/-- `t` is `s` with `text` framed, `rest` the moves still to come. -/
structure TextFramed (s : State) (text : List Char21) (rest : List Event) (t : State) : Prop where
  inv : t.Inv
  phase : t.phase = .accept
  schedule : t.schedule = rest
  framing : t.framing [] = s.framing text
  block : SameBlock s t

/-- A scheduled PUSH with a message open (43_encoder.md R120). -/
theorem step_push {s : State} {d : CfgData} {c : Char21} {rest : List Event} (hr : CodeTable.wf s.rom = true)
    (hp : s.phase = .accept) (hs : s.schedule = pushEvent d c :: rest) :
    step s = .next (frameChar c (takeCommand d rest s)) :=
  step_of_exec hr (encode_push c) hs (exec_push (s := takeCommand d rest s) hp c)

/-- FRAME_CHAR leaves the moves still to come alone (41_framer.md R95). -/
theorem frameChar_schedule (c : Char21) (s : State) : (frameChar c s).schedule = s.schedule := by
  rcases frameChar_cases c s with ⟨-, e⟩ | ⟨-, -, -, e⟩ | ⟨-, -, -, e⟩ |
    ⟨v, req, -, -, -, e⟩ | ⟨v, req, -, -, -, e⟩ <;> rw [e] <;> rfl

/-- The PUSHes of a text that fits run ENCODE's loop to its end (43_encoder.md R123). -/
theorem run_pushes {s : State} {d : CfgData} {text : List Char21} {rest : List Event} (hi : s.Inv)
    (hp : s.phase = .accept) (hs : s.schedule = text.map (pushEvent d) ++ rest)
    (hfit : exceeds (s.framing text).symbols.length s.maxSymbols = false) :
    ∃ t : State, Host.Core.run Sys2Proof.core text.length s = .next t ∧ TextFramed s text rest t := by
  induction text generalizing s with
  | nil => exact ⟨s, rfl, hi, hp, hs, rfl, rfl, rfl, rfl, rfl, rfl, rfl, rfl⟩
  | cons c text ih =>
    have hi' := hi.takeCommand d (text.map (pushEvent d) ++ rest)
    obtain ⟨hframing, hblock⟩ := frameChar_is_loop_turn (s := takeCommand d (text.map (pushEvent d) ++ rest) s) hfit
    obtain ⟨hphase, -, -⟩ := frameChar_frame c (takeCommand d (text.map (pushEvent d) ++ rest) s)
    obtain ⟨t, hrun, ht⟩ := ih (hi'.frameChar hp c) (hphase.trans hp) (frameChar_schedule c _)
      (by rw [hframing, hblock.maxSymbols]; exact hfit)
    exact ⟨t, (run_succ (step_push hi.rom_legal hp hs) _).trans hrun, ht.inv, ht.phase, ht.schedule,
      ht.framing.trans hframing, { hblock.trans ht.block with }⟩

/-- After CFG and BEGIN with a legal configuration, framing is that of ENCODE (43_encoder.md R123). -/
theorem framing_opened {s : State} {d : CfgData} (hv : cfgValid ⟨true, d⟩ = true) (rest : List Event)
    (text : List Char21) : (s.opened d rest).framing text = frameText s.rom d text :=
  framing_of_good (by simp [State.opened, hv]) text

/-- An invalid configuration is latched before the text, so no symbol is framed (60_exceptions.md R132). -/
theorem framing_opened_invalid {s : State} {d : CfgData} (hv : cfgValid ⟨true, d⟩ = false) (rest : List Event)
    (text : List Char21) : (s.opened d rest).framing text = ⟨[], [], some (0, 0)⟩ :=
  framing_of_err (by simp [State.opened, hv]) text

/-- What it is for a text with a legal configuration to fit the capacities (60_exceptions.md R131). -/
theorem capacities_of_encodeFits {s : State} {d : CfgData} {text : List Char21} (hv : cfgValid ⟨true, d⟩ = true)
    (h : encodeFits s d text = true) :
    exceeds (frameText s.rom d text).symbols.length s.maxSymbols = false ∧
    ((frameText s.rom d text).stopped = none →
      exceeds (messageSamples d (frameText s.rom d text).symbols.length) s.maxSamples = false) := by
  simp only [encodeFits, hv, Bool.not_true, Bool.false_or, Bool.and_eq_true, Bool.or_eq_true, Bool.not_eq_true'] at h
  obtain ⟨hsymbols, hsamples⟩ := h
  exact ⟨hsymbols, fun hstop => hsamples.resolve_left (by simp [hstop])⟩

/-- The moves of a call before END frame its text (43_encoder.md R123). -/
theorem run_text {s : State} {d : CfgData} {text : List Char21} (hr : CodeTable.wf s.rom = true)
    (hp : s.phase = .idle ∨ s.phase = .done) (hs : s.schedule = callEvents d text)
    (hfit : encodeFits s d text = true) :
    ∃ (t : State) (rest : List Event), Host.Core.run Sys2Proof.core (2 + text.length) s = .next t ∧
      TextFramed (s.opened d rest) text (closeEvents d) t := by
  have hroom : exceeds ((s.opened d (text.map (pushEvent d) ++ closeEvents d)).framing text).symbols.length
      s.maxSymbols = false := by
    cases hv : cfgValid ⟨true, d⟩ with
    | true => exact framing_opened hv _ text ▸ (capacities_of_encodeFits hv hfit).1
    | false => exact framing_opened_invalid (s := s) hv _ text ▸ exceeds_zero _
  obtain ⟨t, hrun, ht⟩ := run_pushes (s := s.opened d _) (inv_openMessage hr) rfl rfl hroom
  exact ⟨t, _, (run_add (run_opens hr hp (hs.trans (callEvents_eq d text))) _).trans hrun, ht⟩

/-! ### END and WAIT of a call of ENCODE -/

/-- A scheduled END with a message open (43_encoder.md R121). -/
theorem step_end {s : State} {d : CfgData} {rest : List Event} (hr : CodeTable.wf s.rom = true)
    (hp : s.phase = .accept) (hs : s.schedule = .command 0x04000000#32 d :: rest) :
    step s = .next (closeMessage (takeCommand d rest s)) :=
  step_of_exec (i := .endMsg) hr rfl hs (exec_end (s := takeCommand d rest s) hp)

/-- END and WAIT of a failed message take two steps (43_encoder.md R121; 30_encoding.md R53). -/
theorem run_close_failed {t : State} {d : CfgData} (hr : CodeTable.wf t.rom = true) (hp : t.phase = .accept)
    (hs : t.schedule = closeEvents d) (he : t.err ≠ .none) :
    Host.Core.run Sys2Proof.core 2 t = .next (closeFailed (takeCommand d [] t)) := by
  rw [run_succ (step_end hr hp hs), closeMessage_of_err (s := takeCommand d [.wait] t) he]
  exact run_succ (step_wait_done (s := closeFailed (takeCommand d [.wait] t)) hr rfl rfl) 0

/-- A WAIT in SYNTH lasts until the message is made and finished, and is then taken (30_encoding.md R53). -/
theorem run_wait {s : State} {rest : List Event} (hi : s.Inv) (hp : s.phase = .synth)
    (hs : s.schedule = .wait :: rest) :
    Host.Core.run Sys2Proof.core (s.nTotal - s.nSamp + 1 + 1) s =
      .next (takeEvent rest (finishMessage (s.atSample s.nTotal))) := by
  rw [run_add (run_finishes hi hp (.inr ⟨rest, hs⟩))]
  exact run_succ (step_wait_done (s := finishMessage (s.atSample s.nTotal)) hi.rom_legal hs rfl) 0

/-- END and WAIT of a good message that fits make all its samples and finish it (43_encoder.md R121, R122). -/
theorem run_close_good {t : State} {d : CfgData} (hi : t.Inv) (hp : t.phase = .accept)
    (hs : t.schedule = closeEvents d) (he : t.err = .none)
    (hfit : exceeds (messageSamples t.cfg.data t.symq.length) t.maxSamples = false) :
    ∃ (k : Nat) (u : State), Host.Core.run Sys2Proof.core k t = .next (finishMessage u) ∧ SameBlock t u ∧
      u.schedule = [] ∧ u.warn = t.warn ∧
      u.outbuf = (List.range (messageSamples t.cfg.data t.symq.length)).map (sampleAt t.sampling t.cfg.data t.symq) := by
  have hstart := step_end hi.rom_legal hp hs
  rw [closeMessage_of_good (s := takeCommand d [.wait] t) he, takeCommand_cfg, takeCommand_symq, takeCommand_maxSamples,
    hfit] at hstart
  have hwait := run_wait ((hi.takeCommand d [.wait]).startSynth hp he hfit) rfl rfl
  exact ⟨_, State.atSample (startSynth _ (takeCommand d [] t)) _, (run_succ hstart _).trans hwait,
    ⟨rfl, rfl, rfl, rfl, rfl, rfl, rfl⟩, rfl, rfl, rfl⟩

/-- ENCODE of a text framed to its end (43_encoder.md R123). -/
theorem encodeText_of_framed {rom : CodeTable} {d : CfgData} {text : List Char21} {Q : List Sym} {W : List WarnRecord}
    (hv : cfgValid ⟨true, d⟩ = true) (hf : frameText rom d text = ⟨Q, W, none⟩) (p : Sampling) :
    encodeText rom p d text = .ok ((List.range (messageSamples d Q.length)).map (sampleAt p d Q)) W := by
  simp only [encodeText, if_pos hv, hf]

/-- ENCODE of a text that an unsupported character ended (43_encoder.md R123). -/
theorem encodeText_of_stopped {rom : CodeTable} {d : CfgData} {text : List Char21} {Q : List Sym} {W : List WarnRecord}
    {i : Nat} {c : Char21} (hv : cfgValid ⟨true, d⟩ = true) (hf : frameText rom d text = ⟨Q, W, some (i, c)⟩)
    (p : Sampling) : encodeText rom p d text = .unsupportedCharacter i c := by
  simp only [encodeText, if_pos hv, hf]

/-- ENCODE with an invalid configuration (43_encoder.md R123). -/
theorem encodeText_of_invalid {d : CfgData} (hv : cfgValid ⟨true, d⟩ = false) (rom : CodeTable) (p : Sampling)
    (text : List Char21) : encodeText rom p d text = .invalidConfig := by
  simp [encodeText, hv]

/-- Settles O58: the run frames the text as ENCODE's loop does, and END and WAIT then close it by the latched error or make
its samples. -/
theorem blockComputesEncode : Obligations.BlockComputesEncode := by
  intro s d text hr hp hcmd hcap hs hfit
  obtain ⟨t, rest, hrun, hi, hphase, hsched, hframing, hblock⟩ := run_text hr hp hs hfit
  have hcmd' : t.cmdErr = false := hblock.cmdErr.trans hcmd
  have hcap' : t.capErr = false := hblock.capErr.trans hcap
  obtain ⟨-, -, -, hout⟩ := hi.nothing_made hphase
  have hlatch : t.err = .invalidConfig ↔ cfgValid ⟨true, d⟩ = false := by
    have hcheck := hi.cfg_checked (.inl hphase)
    rwa [hblock.cfg] at hcheck
  have hfailed (he : t.err ≠ .none) := (run_add hrun 2).trans (run_close_failed hi.rom_legal hphase hsched he)
  cases hv : cfgValid ⟨true, d⟩ with
  | false =>
    have he := hlatch.mpr hv
    obtain ⟨-, hwarn, -⟩ := hi.invalid_clear he
    rw [encodeText_of_invalid hv]
    exact ⟨_, _, hfailed (by simp [he]), rfl, rfl, hcmd', hcap', congrArg ErrCode.toResult he, hout, hwarn⟩
  | true =>
    rw [framing_opened hv] at hframing
    cases he : t.err with
    | invalidConfig => simp [hv, he] at hlatch
    | unsupportedCharacter =>
      rw [framing_of_err (by simp [he])] at hframing
      rw [encodeText_of_stopped hv hframing.symm]
      exact ⟨_, _, hfailed (by simp [he]), rfl, rfl, hcmd', hcap', congrArg ErrCode.toResult he, rfl, rfl, hout⟩
    | none =>
      rw [framing_of_good he, frameFrom] at hframing
      obtain ⟨-, hsamples⟩ := capacities_of_encodeFits hv hfit
      rw [← hframing] at hsamples
      have hdata : t.cfg.data = d := congrArg CfgReg.data hblock.cfg
      have hsampling : t.sampling = s.sampling := hblock.sampling
      obtain ⟨k, u, hclose, hblock', hsched', hwarn, hmade⟩ := run_close_good hi hphase hsched he
        (by rw [hdata, hblock.maxSamples]; exact hsamples rfl)
      rw [hdata, hsampling] at hmade
      rw [encodeText_of_framed hv hframing.symm]
      exact ⟨_, _, (run_add hrun k).trans hclose, rfl, hsched', hblock'.cmdErr.trans hcmd', hblock'.capErr.trans hcap',
        rfl, hmade, hwarn⟩

end Sys2Proof.Machine
end

section
/-! Proofs for the family 60_exceptions.md: which moves set a fault bit and what they leave, and that instances are
independent. -/

namespace Sys2Proof.Machine

/-! ### ILLEGAL_COMMAND -/

/-- With a word at the head of the schedule the next move is illegal exactly when the word is (60_exceptions.md R130). -/
theorem illegalNext_iff {s : State} {w : Word} {d : CfgData} {rest : List Event}
    (hs : s.schedule = .command w d :: rest) :
    s.illegalNext ↔ ∀ i, decode (.word w) = .ok i → allowedIn i s.phase = false := by
  simp [State.illegalNext, hs]

/-- A command in a phase that allows it is no illegal word (43_encoder.md R115). -/
theorem not_illegalNext_of_allowed {s : State} {w : Word} {d : CfgData} {rest : List Event} {i : Instr}
    (hs : s.schedule = .command w d :: rest) (hd : decode (.word w) = .ok i) (ha : allowedIn i s.phase = true) :
    ¬s.illegalNext := by
  rw [illegalNext_iff hs]
  intro h
  simp [h i hd] at ha

/-- The block's turn takes no word, so no illegal one. -/
theorem State.blockNext.not_illegalNext {s s' : State} (hb : s.blockNext s') : ¬s.illegalNext := by
  rintro ⟨w, d, rest, hw, -⟩
  rcases hb with ⟨hs, -⟩ | ⟨rest', hs, -⟩ | ⟨rest', hs, -⟩ <;> rw [hw] at hs <;> cases hs

/-- A move other than reset is an illegal word, which raises the fault and does no more, or it is none and keeps CMDERR
(60_exceptions.md R130). -/
theorem Move.illegal_or_keeps_cmdErr {s t : State} (h : Move s t) (hr : ¬s.resetNext) :
    (s.illegalNext ∧ ∃ w d rest, s.schedule = .command w d :: rest ∧
      t = raiseFault .illegalCommand (takeCommand d rest s)) ∨
    (¬s.illegalNext ∧ t.cmdErr = s.cmdErr) := by
  cases h with
  | stay s' hb hp ht =>
    obtain ⟨rest, rfl⟩ := hb.eq_takeEvent
    exact .inr ⟨hb.not_illegalNext, ht ▸ rfl⟩
  | finish s' hb hp hn ht =>
    obtain ⟨rest, rfl⟩ := hb.eq_takeEvent
    exact .inr ⟨hb.not_illegalNext, ht ▸ rfl⟩
  | sample s' hb k v hk hv ht =>
    obtain ⟨rest, rfl⟩ := hb.eq_takeEvent
    exact .inr ⟨hb.not_illegalNext, ht ▸ rfl⟩
  | idle rest hs ht => exact .inr ⟨by simp [State.illegalNext, hs], ht ▸ rfl⟩
  | reset d rest hs ht => exact absurd ⟨d, rest, hs⟩ hr
  | illegal w d rest hs hi ht => exact .inl ⟨(illegalNext_iff hs).mpr hi, w, d, rest, hs, ht⟩
  | nop w d rest hs hd ht => exact .inr ⟨not_illegalNext_of_allowed hs hd rfl, ht ▸ rfl⟩
  | cfg w d rest hs hd hp ht => exact .inr ⟨not_illegalNext_of_allowed hs hd (by simpa using hp), ht ▸ rfl⟩
  | beginMsg w d rest hs hd hp ht => exact .inr ⟨not_illegalNext_of_allowed hs hd (by simpa using hp), ht ▸ rfl⟩
  | push w d rest c hs hd hp ht =>
    obtain ⟨-, hcmd, -⟩ := frameChar_frame c (takeCommand d rest s)
    exact .inr ⟨not_illegalNext_of_allowed hs hd (by simpa using hp), ht ▸ hcmd⟩
  | endMsg w d rest hs hd hp ht =>
    obtain ⟨-, -, -, -, hcmd, -⟩ := closeMessage_frame (takeCommand d rest s)
    exact .inr ⟨not_illegalNext_of_allowed hs hd (by simpa using hp), ht ▸ hcmd⟩

/-- Settles O28: an illegal word and a legal move exclude each other, and each has its clause. -/
theorem illegalCommandFault : Obligations.IllegalCommandFault := by
  intro s t h hr
  rcases (step_cases h).2.illegal_or_keeps_cmdErr hr with ⟨hill, w, d, rest, hs, ht⟩ | ⟨hlegal, hcmd⟩
  · exact ⟨fun _ => ⟨w, d, rest, hs, ht⟩, fun hlegal => absurd hill hlegal⟩
  · exact ⟨fun hill => absurd hill hlegal, fun _ => hcmd⟩

/-! ### CAPACITY -/

/-- FRAME_CHAR sets CAPERR only when the symbols of a supported character exceed MAX_SYMBOLS (60_exceptions.md R131). -/
theorem frameChar_sets_capErr {c : Char21} {s : State} (h : (frameChar c s).capErr = true) (h0 : s.capErr = false) :
    s.err = .none ∧ (∃ v req m, symbolFor s.rom c = some (v, req) ∧ s.maxSymbols = some m ∧
      m < s.symq.length + (shiftFor req s.ss).1.length + 1) ∧
    frameChar c s = raiseFault .capacity (countChar s) := by
  rcases frameChar_cases c s with ⟨-, e⟩ | ⟨-, -, -, e⟩ | ⟨-, -, -, e⟩ |
    ⟨v, req, he, hf, hx, e⟩ | ⟨v, req, -, -, -, e⟩
  case inr.inr.inr.inl =>
    obtain ⟨m, hm, hlt⟩ := (exceeds_eq_true_iff _ _).mp hx
    rw [List.length_append, List.length_singleton, ← Nat.add_assoc] at hlt
    exact ⟨he, ⟨v, req, m, hf, hm, hlt⟩, e⟩
  all_goals simp [e, h0] at h

/-- END sets CAPERR only when the samples of a good message exceed MAX_SAMPLES (60_exceptions.md R131). -/
theorem closeMessage_sets_capErr {s : State} (h : (closeMessage s).capErr = true) (h0 : s.capErr = false) :
    s.err = .none ∧ (∃ m, s.maxSamples = some m ∧ m < messageSamples s.cfg.data s.symq.length) ∧
    closeMessage s = raiseFault .capacity s := by
  rcases closeMessage_cases s with ⟨-, e⟩ | ⟨he, hx, e⟩ | ⟨-, -, e⟩
  case inr.inl => exact ⟨he, (exceeds_eq_true_iff _ _).mp hx, e⟩
  all_goals simp [e, h0] at h

/-- Only a PUSH or an END in ACCEPT sets CAPERR (60_exceptions.md R131). -/
theorem Move.sets_capErr {s t : State} (h : Move s t) (h1 : t.capErr = true) (h0 : s.capErr = false) :
    s.phase = .accept ∧ ∃ d rest,
      ((∃ c, s.nextCommand = some (.push c) ∧ t = frameChar c (takeCommand d rest s)) ∨
        (s.nextCommand = some .endMsg ∧ t = closeMessage (takeCommand d rest s))) := by
  cases h with
  | stay s' hb hp ht =>
    obtain ⟨rest, rfl⟩ := hb.eq_takeEvent
    simp [ht, h0] at h1
  | finish s' hb hp hn ht =>
    obtain ⟨rest, rfl⟩ := hb.eq_takeEvent
    simp [ht, h0] at h1
  | sample s' hb k v hk hv ht =>
    obtain ⟨rest, rfl⟩ := hb.eq_takeEvent
    simp [ht, h0] at h1
  | idle rest hs ht => simp [ht, h0] at h1
  | reset d rest hs ht => simp [ht] at h1
  | illegal w d rest hs hi ht => simp [ht, h0] at h1
  | nop w d rest hs hd ht => simp [ht, h0] at h1
  | cfg w d rest hs hd hp ht => simp [ht, h0] at h1
  | beginMsg w d rest hs hd hp ht => simp [ht, h0] at h1
  | push w d rest c hs hd hp ht => exact ⟨hp, d, rest, .inl ⟨c, nextCommand_of_decode hs hd, ht⟩⟩
  | endMsg w d rest hs hd hp ht => exact ⟨hp, d, rest, .inr ⟨nextCommand_of_decode hs hd, ht⟩⟩

/-- Settles O29: the PUSH or the END that sets CAPERR is over its capacity, and it raises the fault and does no more, save
that a PUSH has counted its character. -/
theorem capacityFault : Obligations.CapacityFault := by
  intro s t h _ h1 h0
  obtain ⟨hp, d, rest, ⟨c, hc, rfl⟩ | ⟨hc, rfl⟩⟩ := (step_cases h).2.sets_capErr h1 h0
  · obtain ⟨he, ⟨v, req, m, hf, hm, hlt⟩, e⟩ := frameChar_sets_capErr h1 h0
    rw [e]
    exact ⟨hp, he, rfl, rfl, rfl, rfl, .inl ⟨c, v, req, m, hc, hf, hm, hlt, rfl⟩⟩
  · obtain ⟨he, ⟨m, hm, hlt⟩, e⟩ := closeMessage_sets_capErr h1 h0
    rw [e]
    exact ⟨hp, he, rfl, rfl, rfl, rfl, .inr ⟨m, hc, hm, hlt, rfl⟩⟩

/-! ### Instances -/

theorem stepInstance_of_none {blocks : List State} {i : Nat} (hi : blocks[i]? = none) :
    stepInstance i blocks = .next blocks := by
  rw [stepInstance, hi]

theorem stepInstance_of_next {blocks : List State} {i : Nat} {s t : State} (hi : blocks[i]? = some s)
    (h : step s = .next t) : stepInstance i blocks = .next (blocks.set i t) := by
  simp only [stepInstance, hi, h]

theorem stepInstance_of_fault {blocks : List State} {i : Nat} {s : State} {r : Fault} (hi : blocks[i]? = some s)
    (h : step s = .fault r) : stepInstance i blocks = .fault r := by
  simp only [stepInstance, hi, h]

theorem stepInstance_of_refused {blocks : List State} {i : Nat} {s : State} {r : Refusal} (hi : blocks[i]? = some s)
    (h : step s = .refused r) : stepInstance i blocks = .refused r := by
  simp only [stepInstance, hi, h]

/-- A step of the instances that answers is the step of the one at the position, or there is none (60_exceptions.md
R138). -/
theorem stepInstance_next {blocks blocks' : List State} {i : Nat} (h : stepInstance i blocks = .next blocks') :
    (blocks[i]? = none ∧ blocks' = blocks) ∨
    ∃ s t, blocks[i]? = some s ∧ step s = .next t ∧ blocks' = blocks.set i t := by
  cases hi : blocks[i]? with
  | none =>
    rw [stepInstance_of_none hi, Host.Outcome.next.injEq] at h
    exact .inl ⟨rfl, h.symm⟩
  | some s =>
    cases hs : step s with
    | next t =>
      rw [stepInstance_of_next hi hs, Host.Outcome.next.injEq] at h
      exact .inr ⟨s, t, rfl, hs, h.symm⟩
    | fault r => simp [stepInstance_of_fault hi hs] at h
    | refused r => simp [stepInstance_of_refused hi hs] at h

/-- Settles O60: each outcome by its lemma; the list afterwards is the old one or has one entry set. -/
theorem instancesIndependent : Obligations.InstancesIndependent := by
  intro blocks i
  refine ⟨fun s hi => ⟨fun t => stepInstance_of_next hi, fun r => stepInstance_of_fault hi,
    fun r => stepInstance_of_refused hi⟩, stepInstance_of_none, fun blocks' h => ?_⟩
  rcases stepInstance_next h with ⟨hi, rfl⟩ | ⟨s, t, hi, hs, rfl⟩
  · exact ⟨rfl, fun _ _ => rfl, fun s hsome => by simp [hi] at hsome⟩
  · refine ⟨List.length_set, fun j hj => List.getElem?_set_ne hj.symm, fun s' hs' => ?_⟩
    obtain rfl : s = s' := by simpa [hi] using hs'
    obtain ⟨hlt, -⟩ := List.getElem?_eq_some_iff.mp hi
    exact ⟨t, hs, List.getElem?_set_self hlt⟩

end Sys2Proof.Machine
end

section
/-! Proofs for the family 70_reset_and_hazards.md: what the reset input does, and who writes the configuration. -/

namespace Sys2Proof.Machine

/-! ### Reset -/

/-- STATUS after reset is zero, every field of it being 0 (10_state.md R18; 70_reset_and_hazards.md R141). -/
theorem status_reset : State.reset.status = 0#32 := rfl

/-- Settles O42: the step of a scheduled reset is `applyReset`, which sets these fields and no other. -/
theorem resetInput : Obligations.ResetInput :=
  ⟨fun _ _ _ hw hs => step_eq_applyReset hw hs, status_reset, rfl, rfl, rfl, rfl⟩

/-! ### The writers of CFG -/

/-- FRAME_CHAR only reads the configuration (41_framer.md R95). -/
theorem frameChar_cfg (c : Char21) (s : State) : (frameChar c s).cfg = s.cfg := by
  rcases frameChar_cases c s with ⟨-, e⟩ | ⟨-, -, -, e⟩ | ⟨-, -, -, e⟩ |
    ⟨v, req, -, -, -, e⟩ | ⟨v, req, -, -, -, e⟩ <;> simp [e]

/-- END only reads the configuration (43_encoder.md R121). -/
theorem closeMessage_cfg (s : State) : (closeMessage s).cfg = s.cfg := by
  rcases closeMessage_cases s with ⟨-, e⟩ | ⟨-, -, e⟩ | ⟨-, -, e⟩ <;> simp [e]

/-- A move keeps CFG unless it is the reset input, or the CFG command in IDLE or DONE (70_reset_and_hazards.md R144). -/
theorem Move.cfg_writers {s t : State} (h : Move s t) :
    t.cfg = s.cfg ∨ s.resetNext ∨ (s.nextCommand = some .cfg ∧ (s.phase = .idle ∨ s.phase = .done)) := by
  cases h with
  | stay s' hb hp ht =>
    obtain ⟨rest, rfl⟩ := hb.eq_takeEvent
    exact .inl (ht ▸ rfl)
  | finish s' hb hp hn ht =>
    obtain ⟨rest, rfl⟩ := hb.eq_takeEvent
    exact .inl (ht ▸ rfl)
  | sample s' hb k v hk hv ht =>
    obtain ⟨rest, rfl⟩ := hb.eq_takeEvent
    exact .inl (ht ▸ rfl)
  | idle rest hs ht => exact .inl (ht ▸ rfl)
  | reset d rest hs ht => exact .inr (.inl ⟨d, rest, hs⟩)
  | illegal w d rest hs hi ht => exact .inl (ht ▸ rfl)
  | nop w d rest hs hd ht => exact .inl (ht ▸ rfl)
  | cfg w d rest hs hd hp ht => exact .inr (.inr ⟨nextCommand_of_decode hs hd, hp⟩)
  | beginMsg w d rest hs hd hp ht => exact .inl (ht ▸ rfl)
  | push w d rest c hs hd hp ht => exact .inl (ht ▸ frameChar_cfg c (takeCommand d rest s))
  | endMsg w d rest hs hd hp ht => exact .inl (ht ▸ closeMessage_cfg (takeCommand d rest s))

/-- The next command is the one the word at the head of the schedule decodes to (30_encoding.md R46). -/
theorem nextCommand_eq_some {s : State} {i : Instr} (h : s.nextCommand = some i) :
    ∃ w d rest, s.schedule = .command w d :: rest ∧ decode (.word w) = .ok i := by
  unfold State.nextCommand at h
  split at h
  next w d rest hs =>
    refine ⟨w, d, rest, hs, ?_⟩
    cases hd : decode (.word w) with
    | ok j => simpa [hd, Except.toOption] using h
    | error e => simp [hd, Except.toOption] at h
  next => cases h

/-- A command in a phase that does not allow it is an illegal word (60_exceptions.md R130). -/
theorem illegalNext_of_not_allowed {s : State} {i : Instr} (hc : s.nextCommand = some i)
    (ha : allowedIn i s.phase = false) : s.illegalNext := by
  obtain ⟨w, d, rest, hs, hd⟩ := nextCommand_eq_some hc
  refine (illegalNext_iff hs).mpr fun j hj => ?_
  obtain rfl : i = j := by simpa [hd] using hj
  exact ha

/-- CFG is no legal command while a message is open or being made (43_encoder.md R115). -/
theorem allowedIn_cfg_eq_false {p : Phase} (hp : p = .accept ∨ p = .synth) : allowedIn .cfg p = false := by
  rcases hp with rfl | rfl <;> rfl

/-- Settles O52: neither writer of CFG is such a step, and a CFG command there is an illegal word, which raises the
fault. -/
theorem configurationFixedInMessage : Obligations.ConfigurationFixedInMessage := by
  intro s t h hr hp
  refine ⟨?_, fun hc => ?_⟩
  · rcases (step_cases h).2.cfg_writers with hcfg | hreset | ⟨-, hp'⟩
    · exact hcfg
    · exact absurd hreset hr
    · exact absurd (by simpa using hp') (phase_not_mem_idle_done hp)
  · have hill : s.illegalNext := illegalNext_of_not_allowed hc (allowedIn_cfg_eq_false hp)
    obtain ⟨w, d, rest, -, rfl⟩ := (illegalCommandFault s t h hr).1 hill
    rfl

end Sys2Proof.Machine
end
